-- ==== Sys2Proof/Word.lean ====
section
/-! DEFINITION. The bit-vector types of the block: words, character codes, register numbers (R10, R13, R35). -/

namespace Sys2Proof

/-- A word: a 32-bit pattern (R10, R17). -/
abbrev Word := BitVec 32

/-- A character code or one byte of a register's bus lane (R35, R73). -/
abbrev Byte := BitVec 8

/-- A value register's number, `x0` to `x15` (R13, R92). -/
abbrev Reg := BitVec 4

end Sys2Proof
end

