-- ==== Sys2Proof/Syntax.lean ====
section
/-! DEFINITION. The command set CORE-CMD v1: one constructor per row of the opcode map (R94). -/

namespace Sys2Proof

/-- A command. `d`, `a`, `b` are RD, RA, RB; `sh` is SHAMT and `radix` is IMM8, as numbers (R92). -/
inductive Instr where
  /-- NOP (R123) -/
  | nop
  /-- MOV.I (R124) -/
  | movI (d a : Reg)
  /-- MOV.L (R125) -/
  | movL (d a : Reg)
  /-- LDI.I (R126) -/
  | ldiI (d : Reg)
  /-- LDI.L (R127) -/
  | ldiL (d : Reg)
  /-- LDP.I (R128) -/
  | ldpI (d : Reg)
  /-- LDP.L (R129) -/
  | ldpL (d : Reg)
  /-- WPUSH.I (R130) -/
  | wpushI (d : Reg)
  /-- LDN.I (R131) -/
  | ldnI (d : Reg)
  /-- LDN.L (R132) -/
  | ldnL (d : Reg)
  /-- CVT.I (R133) -/
  | cvtI (d a : Reg)
  /-- CVT.L (R134) -/
  | cvtL (d a : Reg)
  /-- RDW.I (R135) -/
  | rdwI (a : Reg)
  /-- RDW.L (R136) -/
  | rdwL (a : Reg)
  /-- LEN.I (R137) -/
  | lenI (a : Reg)
  /-- TONAT.I (R138) -/
  | tonatI (a : Reg)
  /-- TONAT.L (R139) -/
  | tonatL (a : Reg)
  /-- ADD.I (R161) -/
  | addI (d a b : Reg)
  /-- ADD.L (R162) -/
  | addL (d a b : Reg)
  /-- SUB.I (R163) -/
  | subI (d a b : Reg)
  /-- SUB.L (R164) -/
  | subL (d a b : Reg)
  /-- NEG.I (R165) -/
  | negI (d a : Reg)
  /-- NEG.L (R166) -/
  | negL (d a : Reg)
  /-- MUL.I (R167) -/
  | mulI (d a b : Reg)
  /-- MUL.L (R168) -/
  | mulL (d a b : Reg)
  /-- QUOT.I (R181) -/
  | quotI (d a b : Reg)
  /-- QUOT.L (R182) -/
  | quotL (d a b : Reg)
  /-- REM.I (R183) -/
  | remI (d a b : Reg)
  /-- REM.L (R184) -/
  | remL (d a b : Reg)
  /-- DIV.I (R185) -/
  | divI (d a b : Reg)
  /-- DIV.L (R186) -/
  | divL (d a b : Reg)
  /-- MOD.I (R187) -/
  | modI (d a b : Reg)
  /-- MOD.L (R188) -/
  | modL (d a b : Reg)
  /-- CMP.I (R201) -/
  | cmpI (a b : Reg)
  /-- CMP.L (R202) -/
  | cmpL (a b : Reg)
  /-- SGN.I (R203) -/
  | sgnI (a : Reg)
  /-- SGN.L (R204) -/
  | sgnL (a : Reg)
  /-- AND.I (R211) -/
  | andI (d a b : Reg)
  /-- AND.L (R212) -/
  | andL (d a b : Reg)
  /-- OR.I (R213) -/
  | orI (d a b : Reg)
  /-- OR.L (R214) -/
  | orL (d a b : Reg)
  /-- XOR.I (R215) -/
  | xorI (d a b : Reg)
  /-- XOR.L (R216) -/
  | xorL (d a b : Reg)
  /-- NOT.I (R217) -/
  | notI (d a : Reg)
  /-- NOT.L (R218) -/
  | notL (d a : Reg)
  /-- SHL.I (R220) -/
  | shlI (d a : Reg) (sh : Nat)
  /-- SHL.L (R221) -/
  | shlL (d a : Reg) (sh : Nat)
  /-- SHR.I (R222) -/
  | shrI (d a : Reg) (sh : Nat)
  /-- SHR.L (R223) -/
  | shrL (d a : Reg) (sh : Nat)
  /-- SCLR (R234) -/
  | sclr
  /-- SPUT (R235) -/
  | sput
  /-- SGET (R236) -/
  | sget
  /-- PARSE.I (R237) -/
  | parseI (d : Reg) (radix : Nat)
  /-- TOSTR.I (R238) -/
  | tostrI (a : Reg)
  /-- TOSTR.L (R239) -/
  | tostrL (a : Reg)
  /-- DECD (R262) -/
  | decd (d : Reg)
  /-- DECF (R263) -/
  | decf (d : Reg)
  deriving DecidableEq, Repr

end Sys2Proof
end

