-- ==== Sys2Proof/WellFormed.lean ====
section
/-! DEFINITION. When a command is well formed: its immediate fits the field the format gives it (R90, R92). -/

namespace Sys2Proof

/-- SHAMT is a number in 0..4095 (R92). -/
def shamtOk (sh : Nat) : Bool := decide (sh < 4096)

/-- IMM8 is a number in 0..255 (R92); a radix outside 2..36 is an error of PARSE, not of the format. -/
def imm8Ok (radix : Nat) : Bool := decide (radix < 256)

/-- The bounds of the format, command by command; a register number is in range by its type. -/
def Instr.wf : Instr → Bool
  | .nop => true
  | .movI _ _ => true
  | .movL _ _ => true
  | .ldiI _ => true
  | .ldiL _ => true
  | .ldpI _ => true
  | .ldpL _ => true
  | .wpushI _ => true
  | .ldnI _ => true
  | .ldnL _ => true
  | .cvtI _ _ => true
  | .cvtL _ _ => true
  | .rdwI _ => true
  | .rdwL _ => true
  | .lenI _ => true
  | .tonatI _ => true
  | .tonatL _ => true
  | .addI _ _ _ => true
  | .addL _ _ _ => true
  | .subI _ _ _ => true
  | .subL _ _ _ => true
  | .negI _ _ => true
  | .negL _ _ => true
  | .mulI _ _ _ => true
  | .mulL _ _ _ => true
  | .quotI _ _ _ => true
  | .quotL _ _ _ => true
  | .remI _ _ _ => true
  | .remL _ _ _ => true
  | .divI _ _ _ => true
  | .divL _ _ _ => true
  | .modI _ _ _ => true
  | .modL _ _ _ => true
  | .cmpI _ _ => true
  | .cmpL _ _ => true
  | .sgnI _ => true
  | .sgnL _ => true
  | .andI _ _ _ => true
  | .andL _ _ _ => true
  | .orI _ _ _ => true
  | .orL _ _ _ => true
  | .xorI _ _ _ => true
  | .xorL _ _ _ => true
  | .notI _ _ => true
  | .notL _ _ => true
  | .shlI _ _ sh => shamtOk sh
  | .shlL _ _ sh => shamtOk sh
  | .shrI _ _ sh => shamtOk sh
  | .shrL _ _ sh => shamtOk sh
  | .sclr => true
  | .sput => true
  | .sget => true
  | .parseI _ radix => imm8Ok radix
  | .tostrI _ => true
  | .tostrL _ => true
  | .decd _ => true
  | .decf _ => true

end Sys2Proof
end

