-- ==== Sys2Proof/Decode.lean ====
section
/-! DEFINITION. The decoder, total on every word and every byte list and rejecting by name, and after it the encoder, from the
opcode map (R90, R91, R94, R95). -/

namespace Sys2Proof

/-- Why a word is no command (R95, R274); each of these raises ILLEGAL. `truncated` is for fewer bytes than one word. -/
inductive Illegal where
  /-- the OPC value is reserved -/
  | reservedOpcode
  /-- the opcode does not take this T value -/
  | typeBit
  /-- a must-be-zero bit is set -/
  | nonzeroField
  /-- fewer than four bytes -/
  | truncated
  deriving DecidableEq, Repr

/-- RD, bits 19:16 (R90). -/
def fieldRd (w : Word) : Reg := w.extractLsb' 16 4

/-- RA, bits 15:12 (R90). -/
def fieldRa (w : Word) : Reg := w.extractLsb' 12 4

/-- RB, bits 11:8 (R90). -/
def fieldRb (w : Word) : Reg := w.extractLsb' 8 4

/-- IMM8, bits 7:0, zero-extended (R92). -/
def fieldImm8 (w : Word) : Nat := (w.extractLsb' 0 8).toNat

/-- SHAMT, bits 11:0, zero-extended (R92). -/
def fieldShamt (w : Word) : Nat := (w.extractLsb' 0 12).toNat

/-- OPC and T together, bits 31:25 (R90). -/
def fieldOpcT (w : Word) : BitVec 7 := w.extractLsb' 25 7

/-- Accept `i` for `w` when every must-be-zero bit of its class is 0 (R91). -/
def checkZero (w mustBeZero : Word) (i : Instr) : Except Illegal Instr :=
  if w &&& mustBeZero = 0 then .ok i else .error .nonzeroField

/-- Class none: the bits outside OPC, T and the used fields (R91). -/
def zeroNone : Word := 0x01FFFFFF

/-- Class rd: the bits outside OPC, T and the used fields (R91). -/
def zeroRd : Word := 0x01F0FFFF

/-- Class ra: the bits outside OPC, T and the used fields (R91). -/
def zeroRa : Word := 0x01FF0FFF

/-- Class rd_ra: the bits outside OPC, T and the used fields (R91). -/
def zeroRdRa : Word := 0x01F00FFF

/-- Class ra_rb: the bits outside OPC, T and the used fields (R91). -/
def zeroRaRb : Word := 0x01FF00FF

/-- Class rd_ra_rb: the bits outside OPC, T and the used fields (R91). -/
def zeroRdRaRb : Word := 0x01F000FF

/-- Class rd_ra_sh: the bits outside OPC, T and the used fields (R91). -/
def zeroRdRaSh : Word := 0x01F00000

/-- Class rd_imm: the bits outside OPC, T and the used fields (R91). -/
def zeroRdImm : Word := 0x01F0FF00

/-- The command a word is, or why it is none (R91, R94, R95). The cases are the values of OPC and T together. -/
def decode (w : Word) : Except Illegal Instr :=
  match fieldOpcT w with
  | 0x00#7 => checkZero w zeroNone .nop
  | 0x02#7 => checkZero w zeroRdRa (.movI (fieldRd w) (fieldRa w))
  | 0x03#7 => checkZero w zeroRdRa (.movL (fieldRd w) (fieldRa w))
  | 0x04#7 => checkZero w zeroRd (.ldiI (fieldRd w))
  | 0x05#7 => checkZero w zeroRd (.ldiL (fieldRd w))
  | 0x06#7 => checkZero w zeroRd (.ldpI (fieldRd w))
  | 0x07#7 => checkZero w zeroRd (.ldpL (fieldRd w))
  | 0x08#7 => checkZero w zeroRd (.wpushI (fieldRd w))
  | 0x0A#7 => checkZero w zeroRd (.ldnI (fieldRd w))
  | 0x0B#7 => checkZero w zeroRd (.ldnL (fieldRd w))
  | 0x0C#7 => checkZero w zeroRdRa (.cvtI (fieldRd w) (fieldRa w))
  | 0x0D#7 => checkZero w zeroRdRa (.cvtL (fieldRd w) (fieldRa w))
  | 0x0E#7 => checkZero w zeroRa (.rdwI (fieldRa w))
  | 0x0F#7 => checkZero w zeroRa (.rdwL (fieldRa w))
  | 0x10#7 => checkZero w zeroRa (.lenI (fieldRa w))
  | 0x12#7 => checkZero w zeroRa (.tonatI (fieldRa w))
  | 0x13#7 => checkZero w zeroRa (.tonatL (fieldRa w))
  | 0x20#7 => checkZero w zeroRdRaRb (.addI (fieldRd w) (fieldRa w) (fieldRb w))
  | 0x21#7 => checkZero w zeroRdRaRb (.addL (fieldRd w) (fieldRa w) (fieldRb w))
  | 0x22#7 => checkZero w zeroRdRaRb (.subI (fieldRd w) (fieldRa w) (fieldRb w))
  | 0x23#7 => checkZero w zeroRdRaRb (.subL (fieldRd w) (fieldRa w) (fieldRb w))
  | 0x24#7 => checkZero w zeroRdRa (.negI (fieldRd w) (fieldRa w))
  | 0x25#7 => checkZero w zeroRdRa (.negL (fieldRd w) (fieldRa w))
  | 0x26#7 => checkZero w zeroRdRaRb (.mulI (fieldRd w) (fieldRa w) (fieldRb w))
  | 0x27#7 => checkZero w zeroRdRaRb (.mulL (fieldRd w) (fieldRa w) (fieldRb w))
  | 0x28#7 => checkZero w zeroRdRaRb (.quotI (fieldRd w) (fieldRa w) (fieldRb w))
  | 0x29#7 => checkZero w zeroRdRaRb (.quotL (fieldRd w) (fieldRa w) (fieldRb w))
  | 0x2A#7 => checkZero w zeroRdRaRb (.remI (fieldRd w) (fieldRa w) (fieldRb w))
  | 0x2B#7 => checkZero w zeroRdRaRb (.remL (fieldRd w) (fieldRa w) (fieldRb w))
  | 0x2C#7 => checkZero w zeroRdRaRb (.divI (fieldRd w) (fieldRa w) (fieldRb w))
  | 0x2D#7 => checkZero w zeroRdRaRb (.divL (fieldRd w) (fieldRa w) (fieldRb w))
  | 0x2E#7 => checkZero w zeroRdRaRb (.modI (fieldRd w) (fieldRa w) (fieldRb w))
  | 0x2F#7 => checkZero w zeroRdRaRb (.modL (fieldRd w) (fieldRa w) (fieldRb w))
  | 0x30#7 => checkZero w zeroRaRb (.cmpI (fieldRa w) (fieldRb w))
  | 0x31#7 => checkZero w zeroRaRb (.cmpL (fieldRa w) (fieldRb w))
  | 0x32#7 => checkZero w zeroRa (.sgnI (fieldRa w))
  | 0x33#7 => checkZero w zeroRa (.sgnL (fieldRa w))
  | 0x34#7 => checkZero w zeroRdRaRb (.andI (fieldRd w) (fieldRa w) (fieldRb w))
  | 0x35#7 => checkZero w zeroRdRaRb (.andL (fieldRd w) (fieldRa w) (fieldRb w))
  | 0x36#7 => checkZero w zeroRdRaRb (.orI (fieldRd w) (fieldRa w) (fieldRb w))
  | 0x37#7 => checkZero w zeroRdRaRb (.orL (fieldRd w) (fieldRa w) (fieldRb w))
  | 0x38#7 => checkZero w zeroRdRaRb (.xorI (fieldRd w) (fieldRa w) (fieldRb w))
  | 0x39#7 => checkZero w zeroRdRaRb (.xorL (fieldRd w) (fieldRa w) (fieldRb w))
  | 0x3A#7 => checkZero w zeroRdRa (.notI (fieldRd w) (fieldRa w))
  | 0x3B#7 => checkZero w zeroRdRa (.notL (fieldRd w) (fieldRa w))
  | 0x3C#7 => checkZero w zeroRdRaSh (.shlI (fieldRd w) (fieldRa w) (fieldShamt w))
  | 0x3D#7 => checkZero w zeroRdRaSh (.shlL (fieldRd w) (fieldRa w) (fieldShamt w))
  | 0x3E#7 => checkZero w zeroRdRaSh (.shrI (fieldRd w) (fieldRa w) (fieldShamt w))
  | 0x3F#7 => checkZero w zeroRdRaSh (.shrL (fieldRd w) (fieldRa w) (fieldShamt w))
  | 0x40#7 => checkZero w zeroNone .sclr
  | 0x42#7 => checkZero w zeroNone .sput
  | 0x44#7 => checkZero w zeroNone .sget
  | 0x46#7 => checkZero w zeroRdImm (.parseI (fieldRd w) (fieldImm8 w))
  | 0x48#7 => checkZero w zeroRa (.tostrI (fieldRa w))
  | 0x49#7 => checkZero w zeroRa (.tostrL (fieldRa w))
  | 0x50#7 => checkZero w zeroRd (.decd (fieldRd w))
  | 0x52#7 => checkZero w zeroRd (.decf (fieldRd w))
  | 0x01#7 => .error .typeBit
  | 0x09#7 => .error .typeBit
  | 0x11#7 => .error .typeBit
  | 0x41#7 => .error .typeBit
  | 0x43#7 => .error .typeBit
  | 0x45#7 => .error .typeBit
  | 0x47#7 => .error .typeBit
  | 0x51#7 => .error .typeBit
  | 0x53#7 => .error .typeBit
  | _ => .error .reservedOpcode

/-- The word four bytes hold, byte 0 in bits 7:0 (R73). -/
def wordOfBytes (b0 b1 b2 b3 : Byte) : Word := b3 ++ b2 ++ b1 ++ b0

/-- The four bytes of a word, lowest address first (R73). -/
def bytesOfWord (w : Word) : List Byte :=
  [w.extractLsb' 0 8, w.extractLsb' 8 8, w.extractLsb' 16 8, w.extractLsb' 24 8]

/-- Decode the command at the head of a byte list; the rest of the list is returned with it. Every command is one word (R90). -/
def decodeBytes : List Byte → Except Illegal (Instr × List Byte)
  | b0 :: b1 :: b2 :: b3 :: rest =>
    match decode (wordOfBytes b0 b1 b2 b3) with
    | .ok i => .ok (i, rest)
    | .error e => .error e
  | _ => .error .truncated

/-- The instruction word of the opcode table's numbering: the low `nbits` bits of `w`, every bit above them 0. -/
def tableWord (nbits w : Nat) : Word := BitVec.ofNat 32 (w % 2 ^ nbits)

/-- What the decoder reads from a table word laid out as the hardware stores it. -/
def decodeTableWord (nbits w : Nat) : Option Instr :=
  match decodeBytes (bytesOfWord (tableWord nbits w)) with
  | .ok (i, _) => some i
  | .error _ => none

/-- The word with the given OPC:T and fields, Z = 0 (R90). -/
def encodeFields (opcT : BitVec 7) (d a b : Reg) (imm8 : BitVec 8) : Word :=
  opcT ++ 0#5 ++ d ++ a ++ b ++ imm8

/-- The word of the rd_ra_sh class (R90, R94). -/
def encodeShift (opcT : BitVec 7) (d a : Reg) (sh : Nat) : Word :=
  opcT ++ 0#5 ++ d ++ a ++ BitVec.ofNat 12 sh

/-- The command word of a command (R94). -/
def encode : Instr → Word
  | .nop => encodeFields 0x00 0 0 0 0
  | .movI d a => encodeFields 0x02 d a 0 0
  | .movL d a => encodeFields 0x03 d a 0 0
  | .ldiI d => encodeFields 0x04 d 0 0 0
  | .ldiL d => encodeFields 0x05 d 0 0 0
  | .ldpI d => encodeFields 0x06 d 0 0 0
  | .ldpL d => encodeFields 0x07 d 0 0 0
  | .wpushI d => encodeFields 0x08 d 0 0 0
  | .ldnI d => encodeFields 0x0A d 0 0 0
  | .ldnL d => encodeFields 0x0B d 0 0 0
  | .cvtI d a => encodeFields 0x0C d a 0 0
  | .cvtL d a => encodeFields 0x0D d a 0 0
  | .rdwI a => encodeFields 0x0E 0 a 0 0
  | .rdwL a => encodeFields 0x0F 0 a 0 0
  | .lenI a => encodeFields 0x10 0 a 0 0
  | .tonatI a => encodeFields 0x12 0 a 0 0
  | .tonatL a => encodeFields 0x13 0 a 0 0
  | .addI d a b => encodeFields 0x20 d a b 0
  | .addL d a b => encodeFields 0x21 d a b 0
  | .subI d a b => encodeFields 0x22 d a b 0
  | .subL d a b => encodeFields 0x23 d a b 0
  | .negI d a => encodeFields 0x24 d a 0 0
  | .negL d a => encodeFields 0x25 d a 0 0
  | .mulI d a b => encodeFields 0x26 d a b 0
  | .mulL d a b => encodeFields 0x27 d a b 0
  | .quotI d a b => encodeFields 0x28 d a b 0
  | .quotL d a b => encodeFields 0x29 d a b 0
  | .remI d a b => encodeFields 0x2A d a b 0
  | .remL d a b => encodeFields 0x2B d a b 0
  | .divI d a b => encodeFields 0x2C d a b 0
  | .divL d a b => encodeFields 0x2D d a b 0
  | .modI d a b => encodeFields 0x2E d a b 0
  | .modL d a b => encodeFields 0x2F d a b 0
  | .cmpI a b => encodeFields 0x30 0 a b 0
  | .cmpL a b => encodeFields 0x31 0 a b 0
  | .sgnI a => encodeFields 0x32 0 a 0 0
  | .sgnL a => encodeFields 0x33 0 a 0 0
  | .andI d a b => encodeFields 0x34 d a b 0
  | .andL d a b => encodeFields 0x35 d a b 0
  | .orI d a b => encodeFields 0x36 d a b 0
  | .orL d a b => encodeFields 0x37 d a b 0
  | .xorI d a b => encodeFields 0x38 d a b 0
  | .xorL d a b => encodeFields 0x39 d a b 0
  | .notI d a => encodeFields 0x3A d a 0 0
  | .notL d a => encodeFields 0x3B d a 0 0
  | .shlI d a sh => encodeShift 0x3C d a sh
  | .shlL d a sh => encodeShift 0x3D d a sh
  | .shrI d a sh => encodeShift 0x3E d a sh
  | .shrL d a sh => encodeShift 0x3F d a sh
  | .sclr => encodeFields 0x40 0 0 0 0
  | .sput => encodeFields 0x42 0 0 0 0
  | .sget => encodeFields 0x44 0 0 0 0
  | .parseI d radix => encodeFields 0x46 d 0 0 (BitVec.ofNat 8 radix)
  | .tostrI a => encodeFields 0x48 0 a 0 0
  | .tostrL a => encodeFields 0x49 0 a 0 0
  | .decd d => encodeFields 0x50 d 0 0 0
  | .decf d => encodeFields 0x52 d 0 0 0

end Sys2Proof
end

