-- ==== Sys2Proof/Config.lean ====
section
/-! DEFINITION. What an implementation fixes: the identity word, the window's size, the range of the parameters, and the values
State.reset takes for them. No result of a command is left undefined by the spec, so there is no free value here. -/

namespace Sys2Proof.Config

/-- The ID register (R42). -/
def idWord : Word := 0x434F5245

/-- The host register window has 64 bytes (R36, R70). -/
def windowBytes : Nat := 64

/-- The parameters' ranges (R11, R12). The second STRCAP bound, `STRCAP >= floor(32*MAXW * log10(2)) + 2`, is written without a
logarithm: `2^(32*MAXW)` has at most `STRCAP - 1` decimal digits. DEDUCED, log 11; the equivalence is
`Laws.paramsOk_iff_log`. -/
abbrev paramsOk (maxw strcap : Nat) : Prop :=
  2 ≤ maxw ∧ 20 ≤ strcap ∧ 2 ^ (32 * maxw) < 10 ^ (strcap - 1)

/-- MAXW in `State.reset`: the value of spec/95_test_vectors.md. DESIGN CHOICE, log 3. -/
def resetMaxw : Word := 8

/-- STRCAP in `State.reset`: the value of spec/95_test_vectors.md. DESIGN CHOICE, log 3. -/
def resetStrcap : Word := 80

/-- CORE_BASE in `State.reset`. DESIGN CHOICE, log 4. -/
def resetCoreBase : Nat := 0

/-- What an unlisted entry of the string buffer reads as. The spec leaves it unspecified and no command can see it (R35, R50).
DESIGN CHOICE, log 5. -/
def unlistedByte : Byte := 0

end Sys2Proof.Config
end

