-- ==== Sys2Proof/Machine/State.lean ====
section
/-! DEFINITION. The state of the block, the events the host and the platform bring, the error names, and reset (10_state.md,
R270, R300). -/

namespace Sys2Proof.Machine

/-- A tagged value (R31). The stored length `n` of an Integer is the length of `w`; words are least significant first. -/
inductive Value where
  /-- holds no value -/
  | empty
  /-- an Integer: stored words and sign word -/
  | int (w : List Word) (s : Word)
  /-- a Long: its two words -/
  | long (low high : Word)
  deriving DecidableEq, Repr

/-- The errors a command can end with (R270). -/
inductive Err where
  /-- the command word matches no row of the opcode map -/
  | illegal
  /-- a source register holds EMPTY -/
  | unwritten
  /-- a source register holds the other type -/
  | type
  /-- the divisor is 0 -/
  | divzero
  /-- the PARSE radix is outside 2..36 -/
  | radix
  /-- the PARSE text is empty, or `-` alone -/
  | empty
  /-- the PARSE text has a `-` that is not its first character -/
  | sign
  /-- the PARSE text has a code that is no digit of the radix -/
  | digit
  /-- an Integer result needs more than MAXW words -/
  | capacity
  /-- the SGET index is not below STRLEN -/
  | stridx
  /-- SPUT finds the string buffer full -/
  | strovf
  deriving DecidableEq, Repr

/-- What happens next outside a command: a host access at a host address of `bytes` bytes, the host's polling loop, a turn of
the engine, or reset (R30, R97, R300, R311, R312). DESIGN CHOICE, logs 1 and 9. -/
inductive Event where
  /-- a host write of `value` -/
  | write (addr bytes : Nat) (value : Word)
  /-- a host read -/
  | read (addr bytes : Nat)
  /-- the host polls STATUS until BUSY = 0 -/
  | poll
  /-- the engine moves: the command in flight completes here -/
  | engine
  /-- the platform applies reset -/
  | reset
  deriving DecidableEq, Repr

/-- Byte storage: address and byte pairs in canonical form (see `Memory.wf`). -/
abbrev Memory := List Host.Cell

/-- Reasons the machine stops with a fault. -/
inductive Fault where
  /-- Raised by a host access whose first byte lies outside the register window, which is not the block's (R36, R71; logs 10 and
  16). Safe: nothing is claimed of what such an access does. -/
  | outsideWindow (addr : Nat)
  deriving DecidableEq, Repr

/-- Reasons a step has no meaning. -/
inductive Refusal where
  /-- Raised by `exec` for a command with no meaning yet. Safe: nothing is claimed of it. No arm raises it. -/
  | notModelled (mnemonic : String)
  /-- Raised by a host access that begins in the window and is not 32 bits wide or not at an offset that is a multiple of 4, which the spec
  refuses as unmodelled (R72). Safe: nothing is claimed of it. -/
  | unmodelledAccess (addr bytes : Nat)
  deriving DecidableEq, Repr

/-- The state of the block (10_state.md), its parameters, and the model's own `tape` and `reads`. -/
structure State where
  /-- the value registers `x0` to `x15` (R31) -/
  x : Vector Value 16
  /-- STRBUF, by entry index (R35) -/
  strbuf : Memory
  /-- STRLEN (R35) -/
  strlen : Nat
  /-- ARG_LO (R38) -/
  argLo : Word
  /-- ARG_HI (R38) -/
  argHi : Word
  /-- RES_LO (R39) -/
  resLo : Word
  /-- RES_HI (R39) -/
  resHi : Word
  /-- STATUS.BUSY (R40) -/
  busy : Bool
  /-- STATUS.ERR (R40) -/
  err : Bool
  /-- STATUS.LOST (R40) -/
  lost : Bool
  /-- STATUS.ERRCODE (R40) -/
  errcode : BitVec 4
  /-- STATUS.CMP (R41) -/
  cmp : BitVec 2
  /-- ERRCMD (R44) -/
  errcmd : Word
  /-- CUR_CMD, the word of the command in flight; 0 with none in flight (R48; log 6) -/
  curCmd : Word
  /-- A_LO, latched at acceptance; 0 with no command in flight (R48; log 6) -/
  aLo : Word
  /-- A_HI, latched at acceptance; 0 with no command in flight (R48; log 6) -/
  aHi : Word
  /-- the MAXW register, the parameter MAXW (R11, R43; log 7) -/
  maxw : Word
  /-- the STRCAP register, the parameter STRCAP (R12, R43; log 7) -/
  strcap : Word
  /-- the parameter CORE_BASE (R15, R71; log 4) -/
  coreBase : Nat
  /-- the model's own: what the host, the engine and the platform do next, first to come first (log 1) -/
  tape : List Event
  /-- the model's own: the words host reads have returned, newest first (log 8) -/
  reads : List Word
  deriving DecidableEq, Repr

/-- The state right after reset of a block with the given parameters (R50, R300). -/
def State.resetWith (maxw strcap : Word) (coreBase : Nat) : State where
  x := Vector.replicate 16 .empty
  strbuf := []
  strlen := 0
  argLo := 0
  argHi := 0
  resLo := 0
  resHi := 0
  busy := false
  err := false
  lost := false
  errcode := 0
  cmp := 0
  errcmd := 0
  curCmd := 0
  aLo := 0
  aHi := 0
  maxw := maxw
  strcap := strcap
  coreBase := coreBase
  tape := []
  reads := []

/-- The machine right after reset (R50), with the parameters of spec/95_test_vectors.md (logs 3 and 4). -/
def State.reset : State :=
  State.resetWith Config.resetMaxw Config.resetStrcap Config.resetCoreBase

end Sys2Proof.Machine
end

