-- ==== Sys2Proof/Machine/Numbers.lean ====
section
/-! DEFINITION. The value functions of 00_scope.md: words, Integers and Longs, getBits, the divisions and the infinite bitwise
operations (R17–R24). -/

namespace Sys2Proof.Machine

/-- `word(z)`: the pattern of `z mod 2^32` (R17). -/
def word (z : Int) : Word := BitVec.ofInt 32 z

/-- The sign word of a negative Integer (R18). -/
def signOnes : Word := 0xFFFFFFFF

/-- The unsigned reading of a word sequence, least significant first (R18). -/
def wordsVal : List Word → Nat
  | [] => 0
  | a :: t => a.toNat + 2 ^ 32 * wordsVal t

/-- `IntVal(w, n, s)` (R18). -/
def intVal (w : List Word) (s : Word) : Int :=
  (wordsVal w : Int) - if s = signOnes then ((2 ^ (32 * w.length) : Nat) : Int) else 0

/-- The number whose digits decide the length: `z` itself, or `-z - 1` for a negative `z` (R19). -/
def lenMag (z : Int) : Nat := if z < 0 then (-z - 1).toNat else z.toNat

/-- `len(z)`: the stored words of the canonical Integer of `z` (R19, R20). -/
def intLen (z : Int) : Nat := if lenMag z = 0 then 0 else (lenMag z).log2 / 32 + 1

/-- The sign word of an integer (R19). -/
def signWord (z : Int) : Word := if z < 0 then signOnes else 0

/-- Word `i` of the infinite two's-complement reading of `z` (R19). -/
def wordAt (z : Int) (i : Nat) : Word := word (z / ((2 ^ (32 * i) : Nat) : Int))

/-- `INT(mkInt(z))` (R19). -/
def mkInt (z : Int) : Value := .int ((List.range (intLen z)).map (wordAt z)) (signWord z)

/-- `LongVal(low, high)` (R21). -/
def longVal (low high : Word) : Int := high.toInt * ((2 ^ 32 : Nat) : Int) + (low.toNat : Int)

/-- `wrap64(z)` (R21). -/
def wrap64 (z : Int) : Int :=
  (z + ((2 ^ 63 : Nat) : Int)) % ((2 ^ 64 : Nat) : Int) - ((2 ^ 63 : Nat) : Int)

/-- `LONG(mkLong(z))`, of value `wrap64 z` (R21). -/
def mkLong (z : Int) : Value := .long (word z) (word (z / ((2 ^ 32 : Nat) : Int)))

/-- `LONG_MIN` (R21). -/
def longMin : Int := -((2 ^ 63 : Nat) : Int)

/-- `LONG_MAX` (R21). -/
def longMax : Int := ((2 ^ 63 : Nat) : Int) - 1

/-- The word all of whose bits are bit 31 of `high` (R22). -/
def signOfHigh (high : Word) : Word := if high.msb then signOnes else 0

/-- `getBits(v, i)` (R22). EMPTY has no words; no command asks for one (log 13). -/
def getBits (v : Value) (i : Int) : Word :=
  match v with
  | .empty => 0
  | .int w s => if i < 0 then 0 else w.getD i.toNat s
  | .long low high =>
    if i < 0 then 0 else if i = 0 then low else if i = 1 then high else signOfHigh high

/-- `tdiv(a, b)`, truncating toward zero (R23). -/
def tdiv (a b : Int) : Int := (a * b).sign * ((a.natAbs / b.natAbs : Nat) : Int)

/-- `tmod(a, b)` (R23). -/
def tmod (a b : Int) : Int := a - b * tdiv a b

/-- `fdiv(a, b)`, flooring (R23). -/
def fdiv (a b : Int) : Int := Int.fdiv a b

/-- `fmod(a, b)` (R23). -/
def fmod (a b : Int) : Int := a - b * fdiv a b

/-- Bit `k` of an integer's infinite two's-complement reading (R24). -/
def intBit (z : Int) (k : Nat) : Bool := z / ((2 ^ k : Nat) : Int) % 2 == 1

/-- The bits of `m` where `n` has a 0. -/
def natAndNot (m n : Nat) : Nat := m ^^^ (m &&& n)

/-- `land(a, b)` (R24). -/
def land : Int → Int → Int
  | .ofNat m, .ofNat n => Int.ofNat (m &&& n)
  | .ofNat m, .negSucc n => Int.ofNat (natAndNot m n)
  | .negSucc m, .ofNat n => Int.ofNat (natAndNot n m)
  | .negSucc m, .negSucc n => Int.negSucc (m ||| n)

/-- `lor(a, b)` (R24). -/
def lor : Int → Int → Int
  | .ofNat m, .ofNat n => Int.ofNat (m ||| n)
  | .ofNat m, .negSucc n => Int.negSucc (natAndNot n m)
  | .negSucc m, .ofNat n => Int.negSucc (natAndNot m n)
  | .negSucc m, .negSucc n => Int.negSucc (m &&& n)

/-- `lxor(a, b)` (R24). -/
def lxor : Int → Int → Int
  | .ofNat m, .ofNat n => Int.ofNat (m ^^^ n)
  | .ofNat m, .negSucc n => Int.negSucc (m ^^^ n)
  | .negSucc m, .ofNat n => Int.negSucc (m ^^^ n)
  | .negSucc m, .negSucc n => Int.ofNat (m ^^^ n)

/-- `lnot(z) = -z - 1` (R24). -/
def lnot (z : Int) : Int := -z - 1

/-- `z * 2^sh` (R219). -/
def shiftLeft (z : Int) (sh : Nat) : Int := z * ((2 ^ sh : Nat) : Int)

/-- `floor(z / 2^sh)` (R219). -/
def shiftRight (z : Int) (sh : Nat) : Int := z / ((2 ^ sh : Nat) : Int)

end Sys2Proof.Machine
end

