-- ==== Sys2Proof/Machine/Flags.lean ====
section
/-! DEFINITION. The STATUS register and the two results that feed it: the compare result and the error codes (R40, R41, R200,
R270). -/

namespace Sys2Proof.Machine

/-- The compare result `c` of two integers: -1, 0 or +1 (R200). -/
def compareResult (p q : Int) : Int := if p < q then -1 else if p = q then 0 else 1

/-- `c[1:0]`, the CMP field of a compare result (R41). -/
def cmpField (c : Int) : BitVec 2 := BitVec.ofInt 2 c

/-- The codes of STATUS.ERRCODE (R270). -/
def Err.code : Err → BitVec 4
  | .illegal => 1
  | .unwritten => 2
  | .type => 3
  | .divzero => 4
  | .radix => 5
  | .empty => 6
  | .sign => 7
  | .digit => 8
  | .capacity => 9
  | .stridx => 10
  | .strovf => 11

/-- STATUS as a host read sees it: CMP 9:8, ERRCODE 7:4, bit 3 zero, LOST, ERR, BUSY, the bits above zero (R40). -/
def State.statusWord (s : State) : Word :=
  0#22 ++ s.cmp ++ s.errcode ++ 0#1 ++ BitVec.ofBool s.lost ++ BitVec.ofBool s.err ++ BitVec.ofBool s.busy

end Sys2Proof.Machine
end

