-- ==== Sys2Proof/Machine/Operands.lean ====
section
/-! DEFINITION. The operand forms: the latched argument words, a register read as Integer or as Long, the floating-point
patterns, the text of the string buffer, and the converters between text and numbers (R25, R92, R121, R122, R230–R233, R261). -/

namespace Sys2Proof.Machine

/-- `x[i]` (R25, R31). -/
def State.reg (s : State) (r : Reg) : Value := s.x[r.toNat]'r.isLt

/-- `ReadInt(i)` (R25, R34). -/
def State.readInt (s : State) (r : Reg) : Except Err Int :=
  match s.reg r with
  | .empty => .error .unwritten
  | .int w sg => .ok (intVal w sg)
  | .long _ _ => .error .type

/-- `ReadLong(i)` (R25, R34). -/
def State.readLong (s : State) (r : Reg) : Except Err Int :=
  match s.reg r with
  | .empty => .error .unwritten
  | .int _ _ => .error .type
  | .long low high => .ok (longVal low high)

/-- `A_HI:A_LO` (R16, R48). -/
def State.argPair (s : State) : BitVec 64 := s.aHi ++ s.aLo

/-- A floating-point value: what a pattern denotes (R121, R261). -/
inductive Double where
  | nan
  | inf (neg : Bool)
  /-- `(-1)^neg * m * 2^e` -/
  | finite (neg : Bool) (m : Nat) (e : Int)
  deriving DecidableEq, Repr

/-- `S = b[63]` of a binary64 pattern (R121). -/
def f64Sign (b : BitVec 64) : Bool := b.getLsbD 63

/-- `E = b[62:52]` (R121). -/
def f64Exp (b : BitVec 64) : Nat := (b.extractLsb' 52 11).toNat

/-- `F = b[51:0]` (R121). -/
def f64Frac (b : BitVec 64) : Nat := (b.extractLsb' 0 52).toNat

/-- `f64(b)` (R121). -/
def f64 (b : BitVec 64) : Double :=
  if f64Exp b = 2047 then (if f64Frac b = 0 then .inf (f64Sign b) else .nan)
  else if f64Exp b = 0 then .finite (f64Sign b) (f64Frac b) (-1074)
  else .finite (f64Sign b) (2 ^ 52 + f64Frac b) ((f64Exp b : Int) - 1075)

/-- `S = b[31]` of a binary32 pattern (R261). -/
def f32Sign (b : Word) : Bool := b.getLsbD 31

/-- `E = b[30:23]` (R261). -/
def f32Exp (b : Word) : Nat := (b.extractLsb' 23 8).toNat

/-- `F = b[22:0]` (R261). -/
def f32Frac (b : Word) : Nat := (b.extractLsb' 0 23).toNat

/-- `f32(b)` (R261). -/
def f32 (b : Word) : Double :=
  if f32Exp b = 255 then (if f32Frac b = 0 then .inf (f32Sign b) else .nan)
  else if f32Exp b = 0 then .finite (f32Sign b) (f32Frac b) (-149)
  else .finite (f32Sign b) (2 ^ 23 + f32Frac b) ((f32Exp b : Int) - 150)

/-- `floor(m * 2^e)` for a magnitude. -/
def scaleFloor (m : Nat) (e : Int) : Nat :=
  if 0 ≤ e then m * 2 ^ e.toNat else m / 2 ^ (-e).toNat

/-- `trunc(v)`, toward zero, of a finite value; 0 for NaN and the infinities (R131). -/
def truncDouble : Double → Int
  | .nan => 0
  | .inf _ => 0
  | .finite neg m e => if neg then -((scaleFloor m e : Nat) : Int) else ((scaleFloor m e : Nat) : Int)

/-- The Long that LDN.L makes of a value: truncated and saturated, NaN gives 0 (R132). An integer bound is passed by a value
exactly when it is passed by its truncation. -/
def saturateDouble : Double → Int
  | .nan => 0
  | .inf neg => if neg then longMin else longMax
  | .finite neg m e =>
    if truncDouble (.finite neg m e) ≤ longMin then longMin
    else if longMax < truncDouble (.finite neg m e) then longMax
    else truncDouble (.finite neg m e)

/-- `m / 2^k` rounded to nearest, ties to even (R122). -/
def roundShift (m k : Nat) : Nat :=
  if 2 ^ k < 2 * (m % 2 ^ k) ∨ (2 ^ k = 2 * (m % 2 ^ k) ∧ (m / 2 ^ k) % 2 = 1) then m / 2 ^ k + 1
  else m / 2 ^ k

/-- The 53-bit significand a magnitude rounds to, or 2^53 when the rounding carries (R122). -/
def significand (m : Nat) : Nat :=
  if m.log2 ≤ 52 then m * 2 ^ (52 - m.log2) else roundShift m (m.log2 - 52)

/-- Bits 62:0 of the double nearest to the magnitude `m` (R122). A carry out of the significand adds 1 to the exponent field. -/
def roundMagnitude (m : Nat) : Nat :=
  if m = 0 then 0
  else if 2 ^ 1024 - 2 ^ 970 ≤ m then 0x7FF0000000000000
  else (m.log2 + 1023) * 2 ^ 52 + (significand m - 2 ^ 52)

/-- `roundToDouble(z)` (R122). -/
def roundToDouble (z : Int) : BitVec 64 :=
  BitVec.ofNat 64 ((if z < 0 then 2 ^ 63 else 0) + roundMagnitude z.natAbs)

/-- `digitval(c)` (R231). -/
def digitval (c : Byte) : Nat :=
  let n := c.toNat
  if 0x30 ≤ n ∧ n ≤ 0x39 then n - 0x30
  else if 0x41 ≤ n ∧ n ≤ 0x5A then n - 0x41 + 10
  else if 0x61 ≤ n ∧ n ≤ 0x7A then n - 0x61 + 10
  else 99

/-- The code of `-` (R230). -/
def minusCode : Byte := 0x2D

/-- The value of a digit sequence, most significant first (R232). -/
def digitsVal (r : Nat) (t : List Byte) : Nat := t.foldl (fun acc c => acc * r + digitval c) 0

/-- The text after its leading sign, if it has one (R232). -/
def parseBody (t : List Byte) : List Byte := if t.head? = some minusCode then t.tail else t

/-- `parse(t, r)`; the errors are tested in the order RADIX, EMPTY, SIGN, DIGIT (R232). -/
def parse (t : List Byte) (r : Nat) : Except Err Int :=
  if r < 2 ∨ 36 < r then .error .radix
  else if parseBody t = [] then .error .empty
  else if (parseBody t).contains minusCode then .error .sign
  else if (parseBody t).any (fun c => decide (r ≤ digitval c)) then .error .digit
  else if t.head? = some minusCode then .ok (-((digitsVal r (parseBody t) : Nat) : Int))
  else .ok ((digitsVal r (parseBody t) : Nat) : Int)

/-- The code of a decimal digit (R230). -/
def digitCode (n : Nat) : Byte := BitVec.ofNat 8 (0x30 + n)

/-- The decimal digits of `n`, most significant first; `fuel` bounds their number. -/
def decDigits : Nat → Nat → List Byte
  | 0, _ => []
  | fuel + 1, n => if n < 10 then [digitCode n] else decDigits fuel (n / 10) ++ [digitCode (n % 10)]

/-- The decimal text of a magnitude; a number has no more decimal digits than binary digits. -/
def decNat (n : Nat) : List Byte := decDigits (n.log2 + 1) n

/-- `dec(z)` (R233). -/
def dec (z : Int) : List Byte := if z < 0 then minusCode :: decNat z.natAbs else decNat z.natAbs

end Sys2Proof.Machine
end

