-- ==== Sys2Proof/Machine/Ops.lean ====
section
/-! DEFINITION. The named operations: the string buffer's bytes, register and result writes, acceptance, completion, the error
completion (the block's one way of taking an exception) and the host's return from it, and the shapes several commands share. -/

namespace Sys2Proof.Machine

/-- The byte at an address. -/
def Memory.read : Memory → Nat → Byte
  | [], _ => Config.unlistedByte
  | (k, v) :: rest, a => if a = k then v else Memory.read rest a

/-- Write one byte, keeping the canonical form: a byte equal to an unlisted one is not listed. -/
def Memory.write : Memory → Nat → Byte → Memory
  | [], a, b => if b = Config.unlistedByte then [] else [(a, b)]
  | (k, v) :: rest, a, b =>
    if a < k then (if b = Config.unlistedByte then (k, v) :: rest else (a, b) :: (k, v) :: rest)
    else if a = k then (if b = Config.unlistedByte then rest else (a, b) :: rest)
    else (k, v) :: Memory.write rest a b

/-- Write consecutive bytes from an address up. -/
def Memory.writeAll : Memory → Nat → List Byte → Memory
  | m, _, [] => m
  | m, a, b :: t => Memory.writeAll (Memory.write m a b) (a + 1) t

/-- The canonical form: addresses strictly rise and no listed byte is what an unlisted one reads as. -/
abbrev Memory.wf (m : Memory) : Prop :=
  m.Pairwise (fun p q => p.1 < q.1) ∧ ∀ c ∈ m, c.2 ≠ Config.unlistedByte

/-- `STR`, the entries below STRLEN (45_radix.md). -/
def State.text (s : State) : List Byte := (List.range s.strlen).map (Memory.read s.strbuf)

/-- `x[i] <- v` (R25). -/
def State.setReg (s : State) (r : Reg) (v : Value) : State := { s with x := s.x.set r.toNat v r.isLt }

/-- `WriteInt(i, z)` (R25, R272). -/
def State.writeInt (s : State) (r : Reg) (z : Int) : Except Err State :=
  if s.maxw.toNat < intLen z then .error .capacity else .ok (s.setReg r (mkInt z))

/-- `WriteLong(i, z)` (R25). -/
def State.writeLong (s : State) (r : Reg) (z : Int) : State := s.setReg r (mkLong z)

/-- `RES_LO <- lo` and `RES_HI <- hi` (R25, R39). -/
def State.setRes (s : State) (lo hi : Word) : State := { s with resLo := lo, resHi := hi }

/-- `CMPF <- c[1:0]` together with the result words of a compare (R200). -/
def State.setCompare (s : State) (c : Int) : State :=
  { s.setRes (word c) 0 with cmp := cmpField c }

/-- Replace the string buffer's text (R238). -/
def State.setText (s : State) (t : List Byte) : State :=
  { s with strbuf := Memory.writeAll s.strbuf 0 t, strlen := t.length }

/-- No command in flight any more (R48, R311). -/
def State.complete (s : State) : State := { s with busy := false, curCmd := 0, aLo := 0, aHi := 0 }

/-- Error completion: the one way a command takes an exception. The error's code and the command word are recorded, nothing else
of the command takes effect, and the command is over (R271). -/
def State.raise (s : State) (e : Err) : State :=
  { s.complete with err := true, errcode := e.code, errcmd := s.curCmd }

/-- A host write of `v` to STATUS: bit 1 is the return from an error, bit 2 acknowledges a lost write (R45, R276). -/
def State.acknowledge (s : State) (v : Word) : State :=
  { s with
    err := if v.getLsbD 1 then false else s.err
    errcode := if v.getLsbD 1 then 0 else s.errcode
    lost := if v.getLsbD 2 then false else s.lost }

/-- Acceptance of a command word (R310). -/
def State.accept (s : State) (c : Word) : State :=
  { s with curCmd := c, aLo := s.argLo, aHi := s.argHi, busy := true }

/-- Reset as an event: every piece of the block's state takes its reset value, the parameters stay, and so do the model's own
`tape` and `reads` (R300, R302; log 14). -/
def State.applyReset (s : State) : State :=
  { State.resetWith s.maxw s.strcap s.coreBase with tape := s.tape, reads := s.reads }

/-- The end of a command: either all its buffered writes take effect at once, or its error is taken from the state before it
(R26, R271, R311). -/
def finish (s : State) (r : Except Err State) : Host.Outcome State Fault Refusal :=
  .next (match r with
    | .ok t => t.complete
    | .error e => s.raise e)

/-- An Integer of one Integer operand. -/
def intUnary (s : State) (d a : Reg) (f : Int → Int) : Except Err State := do
  let z ← s.readInt a
  s.writeInt d (f z)

/-- An Integer of two Integer operands, read in the order `xa`, `xb` (R273). -/
def intBinary (s : State) (d a b : Reg) (f : Int → Int → Int) : Except Err State := do
  let p ← s.readInt a
  let q ← s.readInt b
  s.writeInt d (f p q)

/-- A Long of one Long operand. -/
def longUnary (s : State) (d a : Reg) (f : Int → Int) : Except Err State := do
  let z ← s.readLong a
  .ok (s.writeLong d (f z))

/-- A Long of two Long operands, read in the order `xa`, `xb` (R273). -/
def longBinary (s : State) (d a b : Reg) (f : Int → Int → Int) : Except Err State := do
  let p ← s.readLong a
  let q ← s.readLong b
  .ok (s.writeLong d (f p q))

/-- An Integer division: DIVZERO after the operand checks and before CAPACITY (R181, R275). -/
def intDivision (s : State) (d a b : Reg) (f : Int → Int → Int) : Except Err State := do
  let p ← s.readInt a
  let q ← s.readInt b
  if q = 0 then .error .divzero else s.writeInt d (f p q)

/-- A Long division (R182, R275). -/
def longDivision (s : State) (d a b : Reg) (f : Int → Int → Int) : Except Err State := do
  let p ← s.readLong a
  let q ← s.readLong b
  if q = 0 then .error .divzero else .ok (s.writeLong d (f p q))

/-- The two result words of an integer's nearest double (R138). -/
def State.setResDouble (s : State) (z : Int) : State :=
  s.setRes ((roundToDouble z).extractLsb' 0 32) ((roundToDouble z).extractLsb' 32 32)

/-- The text of a number into the string buffer, its length into RES (R238). -/
def State.putText (s : State) (t : List Byte) : State :=
  (s.setText t).setRes (BitVec.ofNat 32 t.length) 0

/-- The sign word of a decomposition: -1 or +1 (R262). -/
def signResult (neg : Bool) : Word := if neg then 0xFFFFFFFF else 0x00000001

end Sys2Proof.Machine
end

