-- ==== Sys2Proof/Machine/AddSubMul.lean ====
section
/-! DEFINITION. The adder and the multiplier (41_add_sub_mul.md). One definition per command. -/

namespace Sys2Proof.Machine

/-- ADD.I (R161): exact sum. -/
def execAddI (d a b : Reg) (s : State) : Host.Outcome State Fault Refusal :=
  finish s (intBinary s d a b (fun p q => p + q))

/-- ADD.L (R162): sum modulo 2^64. -/
def execAddL (d a b : Reg) (s : State) : Host.Outcome State Fault Refusal :=
  finish s (longBinary s d a b (fun p q => p + q))

/-- SUB.I (R163): exact difference. -/
def execSubI (d a b : Reg) (s : State) : Host.Outcome State Fault Refusal :=
  finish s (intBinary s d a b (fun p q => p - q))

/-- SUB.L (R164): difference modulo 2^64. -/
def execSubL (d a b : Reg) (s : State) : Host.Outcome State Fault Refusal :=
  finish s (longBinary s d a b (fun p q => p - q))

/-- NEG.I (R165): exact negation. -/
def execNegI (d a : Reg) (s : State) : Host.Outcome State Fault Refusal :=
  finish s (intUnary s d a (fun z => -z))

/-- NEG.L (R166): negation modulo 2^64. -/
def execNegL (d a : Reg) (s : State) : Host.Outcome State Fault Refusal :=
  finish s (longUnary s d a (fun z => -z))

/-- MUL.I (R167): exact product. -/
def execMulI (d a b : Reg) (s : State) : Host.Outcome State Fault Refusal :=
  finish s (intBinary s d a b (fun p q => p * q))

/-- MUL.L (R168): product modulo 2^64. -/
def execMulL (d a b : Reg) (s : State) : Host.Outcome State Fault Refusal :=
  finish s (longBinary s d a b (fun p q => p * q))

end Sys2Proof.Machine
end

