-- ==== Sys2Proof/Machine/BitDecomposition.lean ====
section
/-! DEFINITION. The mantissa extractor (46_bit_decomposition.md). One definition per command. -/

namespace Sys2Proof.Machine

/-- The mantissa of a binary64 pattern: the implicit bit unless E = 0 (R262). -/
def f64Mantissa (b : BitVec 64) : Nat := if f64Exp b = 0 then f64Frac b else 2 ^ 52 + f64Frac b

/-- The exponent of a binary64 pattern: -1074 when E = 0, else E - 1075 (R262). -/
def f64Exponent (b : BitVec 64) : Int := if f64Exp b = 0 then -1074 else (f64Exp b : Int) - 1075

/-- The mantissa of a binary32 pattern (R263). -/
def f32Mantissa (b : Word) : Nat := if f32Exp b = 0 then f32Frac b else 2 ^ 23 + f32Frac b

/-- The exponent of a binary32 pattern: -149 when E = 0, else E - 150 (R263). -/
def f32Exponent (b : Word) : Int := if f32Exp b = 0 then -149 else (f32Exp b : Int) - 150

/-- DECD (R262): mantissa, exponent and sign of a binary64. -/
def execDecd (d : Reg) (s : State) : Host.Outcome State Fault Refusal :=
  finish s (do
    let t ← s.writeInt d (f64Mantissa s.argPair : Nat)
    .ok (t.setRes (word (f64Exponent s.argPair)) (signResult (f64Sign s.argPair))))

/-- DECF (R263): mantissa, exponent and sign of a binary32. -/
def execDecf (d : Reg) (s : State) : Host.Outcome State Fault Refusal :=
  finish s (do
    let t ← s.writeInt d (f32Mantissa s.aLo : Nat)
    .ok (t.setRes (word (f32Exponent s.aLo)) (signResult (f32Sign s.aLo))))

end Sys2Proof.Machine
end

