-- ==== Sys2Proof/Machine/BitwiseShift.lean ====
section
/-! DEFINITION. The bitwise units and the shifter (44_bitwise_shift.md). One definition per command. -/

namespace Sys2Proof.Machine

/-- AND.I (R211): bitwise AND. -/
def execAndI (d a b : Reg) (s : State) : Host.Outcome State Fault Refusal :=
  finish s (intBinary s d a b land)

/-- AND.L (R212): bitwise AND. -/
def execAndL (d a b : Reg) (s : State) : Host.Outcome State Fault Refusal :=
  finish s (longBinary s d a b land)

/-- OR.I (R213): bitwise OR. -/
def execOrI (d a b : Reg) (s : State) : Host.Outcome State Fault Refusal :=
  finish s (intBinary s d a b lor)

/-- OR.L (R214): bitwise OR. -/
def execOrL (d a b : Reg) (s : State) : Host.Outcome State Fault Refusal :=
  finish s (longBinary s d a b lor)

/-- XOR.I (R215): bitwise exclusive OR. -/
def execXorI (d a b : Reg) (s : State) : Host.Outcome State Fault Refusal :=
  finish s (intBinary s d a b lxor)

/-- XOR.L (R216): bitwise exclusive OR. -/
def execXorL (d a b : Reg) (s : State) : Host.Outcome State Fault Refusal :=
  finish s (longBinary s d a b lxor)

/-- NOT.I (R217): bitwise complement. -/
def execNotI (d a : Reg) (s : State) : Host.Outcome State Fault Refusal :=
  finish s (intUnary s d a lnot)

/-- NOT.L (R218): bitwise complement. -/
def execNotL (d a : Reg) (s : State) : Host.Outcome State Fault Refusal :=
  finish s (longUnary s d a lnot)

/-- SHL.I (R220): exact left shift. -/
def execShlI (d a : Reg) (sh : Nat) (s : State) : Host.Outcome State Fault Refusal :=
  finish s (intUnary s d a (fun z => shiftLeft z sh))

/-- SHL.L (R221): left shift modulo 2^64. -/
def execShlL (d a : Reg) (sh : Nat) (s : State) : Host.Outcome State Fault Refusal :=
  finish s (longUnary s d a (fun z => shiftLeft z sh))

/-- SHR.I (R222): arithmetic right shift. -/
def execShrI (d a : Reg) (sh : Nat) (s : State) : Host.Outcome State Fault Refusal :=
  finish s (intUnary s d a (fun z => shiftRight z sh))

/-- SHR.L (R223): arithmetic right shift. -/
def execShrL (d a : Reg) (sh : Nat) (s : State) : Host.Outcome State Fault Refusal :=
  finish s (longUnary s d a (fun z => shiftRight z sh))

end Sys2Proof.Machine
end

