-- ==== Sys2Proof/Machine/Compare.lean ====
section
/-! DEFINITION. The comparator (43_compare.md). One definition per command. -/

namespace Sys2Proof.Machine

/-- CMP.I (R201): compare two Integers. -/
def execCmpI (a b : Reg) (s : State) : Host.Outcome State Fault Refusal :=
  finish s (do
    let p ← s.readInt a
    let q ← s.readInt b
    .ok (s.setCompare (compareResult p q)))

/-- CMP.L (R202): compare two Longs. -/
def execCmpL (a b : Reg) (s : State) : Host.Outcome State Fault Refusal :=
  finish s (do
    let p ← s.readLong a
    let q ← s.readLong b
    .ok (s.setCompare (compareResult p q)))

/-- SGN.I (R203): the sign of an Integer. -/
def execSgnI (a : Reg) (s : State) : Host.Outcome State Fault Refusal :=
  finish s (do
    let z ← s.readInt a
    .ok (s.setCompare (compareResult z 0)))

/-- SGN.L (R204): the sign of a Long. -/
def execSgnL (a : Reg) (s : State) : Host.Outcome State Fault Refusal :=
  finish s (do
    let z ← s.readLong a
    .ok (s.setCompare (compareResult z 0)))

end Sys2Proof.Machine
end

