-- ==== Sys2Proof/Machine/Division.lean ====
section
/-! DEFINITION. The division engine (42_division.md). One definition per command. -/

namespace Sys2Proof.Machine

/-- QUOT.I (R181): quotient toward zero. -/
def execQuotI (d a b : Reg) (s : State) : Host.Outcome State Fault Refusal :=
  finish s (intDivision s d a b tdiv)

/-- QUOT.L (R182): quotient toward zero, modulo 2^64. -/
def execQuotL (d a b : Reg) (s : State) : Host.Outcome State Fault Refusal :=
  finish s (longDivision s d a b tdiv)

/-- REM.I (R183): remainder of the truncating division. -/
def execRemI (d a b : Reg) (s : State) : Host.Outcome State Fault Refusal :=
  finish s (intDivision s d a b tmod)

/-- REM.L (R184): remainder of the truncating division. -/
def execRemL (d a b : Reg) (s : State) : Host.Outcome State Fault Refusal :=
  finish s (longDivision s d a b tmod)

/-- DIV.I (R185): quotient toward negative infinity. -/
def execDivI (d a b : Reg) (s : State) : Host.Outcome State Fault Refusal :=
  finish s (intDivision s d a b fdiv)

/-- DIV.L (R186): quotient toward negative infinity, modulo 2^64 (90_conflicts.md C1). -/
def execDivL (d a b : Reg) (s : State) : Host.Outcome State Fault Refusal :=
  finish s (longDivision s d a b fdiv)

/-- MOD.I (R187): remainder of the flooring division. -/
def execModI (d a b : Reg) (s : State) : Host.Outcome State Fault Refusal :=
  finish s (intDivision s d a b fmod)

/-- MOD.L (R188): remainder of the flooring division. -/
def execModL (d a b : Reg) (s : State) : Host.Outcome State Fault Refusal :=
  finish s (longDivision s d a b fmod)

end Sys2Proof.Machine
end

