-- ==== Sys2Proof/Machine/Radix.lean ====
section
/-! DEFINITION. The string buffer and the radix converter (45_radix.md). One definition per command. -/

namespace Sys2Proof.Machine

/-- SCLR (R234): empty the string buffer; the old entries are not cleared. -/
def execSclr (s : State) : Host.Outcome State Fault Refusal :=
  finish s (.ok { s with strlen := 0 })

/-- SPUT (R235): append `A_LO[7:0]`. -/
def execSput (s : State) : Host.Outcome State Fault Refusal :=
  finish s (if s.strlen = s.strcap.toNat then .error .strovf
    else .ok { s with
      strbuf := Memory.write s.strbuf s.strlen (s.aLo.extractLsb' 0 8)
      strlen := s.strlen + 1 })

/-- SGET (R236): the code at the unsigned index `A_LO`. -/
def execSget (s : State) : Host.Outcome State Fault Refusal :=
  finish s (if s.strlen ≤ s.aLo.toNat then .error .stridx
    else .ok (s.setRes ((Memory.read s.strbuf s.aLo.toNat).zeroExtend 32) 0))

/-- PARSE.I (R237): parse the text in a radix; CAPACITY comes last. -/
def execParseI (d : Reg) (radix : Nat) (s : State) : Host.Outcome State Fault Refusal :=
  finish s (do
    let z ← parse s.text radix
    s.writeInt d z)

/-- TOSTR.I (R238): the decimal text of an Integer. -/
def execTostrI (a : Reg) (s : State) : Host.Outcome State Fault Refusal :=
  finish s (do
    let z ← s.readInt a
    .ok (s.putText (dec z)))

/-- TOSTR.L (R239): the decimal text of a Long. -/
def execTostrL (a : Reg) (s : State) : Host.Outcome State Fault Refusal :=
  finish s (do
    let z ← s.readLong a
    .ok (s.putText (dec z)))

end Sys2Proof.Machine
end

