-- ==== Sys2Proof/Machine/WordVector.lean ====
section
/-! DEFINITION. Moving, loading, converting and reading values (40_word_vector.md). One definition per command. -/

namespace Sys2Proof.Machine

/-- NOP (R123): no operation. -/
def execNop (s : State) : Host.Outcome State Fault Refusal :=
  finish s (.ok s)

/-- MOV.I (R124): copy an Integer register. -/
def execMovI (d a : Reg) (s : State) : Host.Outcome State Fault Refusal :=
  finish s (do
    let z ← s.readInt a
    .ok (s.setReg d (mkInt z)))

/-- MOV.L (R125): copy a Long register. -/
def execMovL (d a : Reg) (s : State) : Host.Outcome State Fault Refusal :=
  finish s (longUnary s d a (fun z => z))

/-- LDI.I (R126): `s32(A_LO)` as an Integer. -/
def execLdiI (d : Reg) (s : State) : Host.Outcome State Fault Refusal :=
  finish s (s.writeInt d s.aLo.toInt)

/-- LDI.L (R127): `s32(A_LO)` as a Long. -/
def execLdiL (d : Reg) (s : State) : Host.Outcome State Fault Refusal :=
  finish s (.ok (s.writeLong d s.aLo.toInt))

/-- LDP.I (R128): `s64(A_HI:A_LO)` as an Integer. -/
def execLdpI (d : Reg) (s : State) : Host.Outcome State Fault Refusal :=
  finish s (s.writeInt d s.argPair.toInt)

/-- LDP.L (R129): a Long from its two words. -/
def execLdpL (d : Reg) (s : State) : Host.Outcome State Fault Refusal :=
  finish s (.ok (s.setReg d (.long s.aLo s.aHi)))

/-- WPUSH.I (R130): append a less significant word to `xd`. -/
def execWpushI (d : Reg) (s : State) : Host.Outcome State Fault Refusal :=
  finish s (do
    let z ← s.readInt d
    s.writeInt d (z * ((2 ^ 32 : Nat) : Int) + (s.aLo.toNat : Int)))

/-- LDN.I (R131): an Integer from a binary64, truncated; NaN and the infinities give 0. -/
def execLdnI (d : Reg) (s : State) : Host.Outcome State Fault Refusal :=
  finish s (s.writeInt d (truncDouble (f64 s.argPair)))

/-- LDN.L (R132): a Long from a binary64, truncated and saturated; NaN gives 0. -/
def execLdnL (d : Reg) (s : State) : Host.Outcome State Fault Refusal :=
  finish s (.ok (s.writeLong d (saturateDouble (f64 s.argPair))))

/-- CVT.I (R133): Integer to Long, the two low words. -/
def execCvtI (d a : Reg) (s : State) : Host.Outcome State Fault Refusal :=
  finish s (do
    let _ ← s.readInt a
    .ok (s.setReg d (.long (getBits (s.reg a) 0) (getBits (s.reg a) 1))))

/-- CVT.L (R134): Long to Integer. -/
def execCvtL (d a : Reg) (s : State) : Host.Outcome State Fault Refusal :=
  finish s (do
    let z ← s.readLong a
    s.writeInt d z)

/-- RDW.I (R135): one word of an Integer, at a signed index. -/
def execRdwI (a : Reg) (s : State) : Host.Outcome State Fault Refusal :=
  finish s (do
    let z ← s.readInt a
    .ok (s.setRes (getBits (mkInt z) s.aLo.toInt) 0))

/-- RDW.L (R136): one word of a Long, at a signed index. -/
def execRdwL (a : Reg) (s : State) : Host.Outcome State Fault Refusal :=
  finish s (do
    let _ ← s.readLong a
    .ok (s.setRes (getBits (s.reg a) s.aLo.toInt) 0))

/-- LEN.I (R137): an Integer's stored length and sign word. -/
def execLenI (a : Reg) (s : State) : Host.Outcome State Fault Refusal :=
  finish s (do
    let z ← s.readInt a
    .ok (s.setRes (BitVec.ofNat 32 (intLen z)) (signWord z)))

/-- TONAT.I (R138): the double nearest to an Integer. -/
def execTonatI (a : Reg) (s : State) : Host.Outcome State Fault Refusal :=
  finish s (do
    let z ← s.readInt a
    .ok (s.setResDouble z))

/-- TONAT.L (R139): the double nearest to a Long. -/
def execTonatL (a : Reg) (s : State) : Host.Outcome State Fault Refusal :=
  finish s (do
    let z ← s.readLong a
    .ok (s.setResDouble z))

end Sys2Proof.Machine
end

