-- ==== Sys2Proof/Machine/Dispatch.lean ====
section
/-! DEFINITION. One arm per command. -/

namespace Sys2Proof.Machine

def exec (i : Instr) (s : State) : Host.Outcome State Fault Refusal :=
  match i with
  | .nop => Sys2Proof.Machine.execNop s
  | .movI d a => Sys2Proof.Machine.execMovI d a s
  | .movL d a => Sys2Proof.Machine.execMovL d a s
  | .ldiI d => Sys2Proof.Machine.execLdiI d s
  | .ldiL d => Sys2Proof.Machine.execLdiL d s
  | .ldpI d => Sys2Proof.Machine.execLdpI d s
  | .ldpL d => Sys2Proof.Machine.execLdpL d s
  | .wpushI d => Sys2Proof.Machine.execWpushI d s
  | .ldnI d => Sys2Proof.Machine.execLdnI d s
  | .ldnL d => Sys2Proof.Machine.execLdnL d s
  | .cvtI d a => Sys2Proof.Machine.execCvtI d a s
  | .cvtL d a => Sys2Proof.Machine.execCvtL d a s
  | .rdwI a => Sys2Proof.Machine.execRdwI a s
  | .rdwL a => Sys2Proof.Machine.execRdwL a s
  | .lenI a => Sys2Proof.Machine.execLenI a s
  | .tonatI a => Sys2Proof.Machine.execTonatI a s
  | .tonatL a => Sys2Proof.Machine.execTonatL a s
  | .addI d a b => Sys2Proof.Machine.execAddI d a b s
  | .addL d a b => Sys2Proof.Machine.execAddL d a b s
  | .subI d a b => Sys2Proof.Machine.execSubI d a b s
  | .subL d a b => Sys2Proof.Machine.execSubL d a b s
  | .negI d a => Sys2Proof.Machine.execNegI d a s
  | .negL d a => Sys2Proof.Machine.execNegL d a s
  | .mulI d a b => Sys2Proof.Machine.execMulI d a b s
  | .mulL d a b => Sys2Proof.Machine.execMulL d a b s
  | .quotI d a b => Sys2Proof.Machine.execQuotI d a b s
  | .quotL d a b => Sys2Proof.Machine.execQuotL d a b s
  | .remI d a b => Sys2Proof.Machine.execRemI d a b s
  | .remL d a b => Sys2Proof.Machine.execRemL d a b s
  | .divI d a b => Sys2Proof.Machine.execDivI d a b s
  | .divL d a b => Sys2Proof.Machine.execDivL d a b s
  | .modI d a b => Sys2Proof.Machine.execModI d a b s
  | .modL d a b => Sys2Proof.Machine.execModL d a b s
  | .cmpI a b => Sys2Proof.Machine.execCmpI a b s
  | .cmpL a b => Sys2Proof.Machine.execCmpL a b s
  | .sgnI a => Sys2Proof.Machine.execSgnI a s
  | .sgnL a => Sys2Proof.Machine.execSgnL a s
  | .andI d a b => Sys2Proof.Machine.execAndI d a b s
  | .andL d a b => Sys2Proof.Machine.execAndL d a b s
  | .orI d a b => Sys2Proof.Machine.execOrI d a b s
  | .orL d a b => Sys2Proof.Machine.execOrL d a b s
  | .xorI d a b => Sys2Proof.Machine.execXorI d a b s
  | .xorL d a b => Sys2Proof.Machine.execXorL d a b s
  | .notI d a => Sys2Proof.Machine.execNotI d a s
  | .notL d a => Sys2Proof.Machine.execNotL d a s
  | .shlI d a sh => Sys2Proof.Machine.execShlI d a sh s
  | .shlL d a sh => Sys2Proof.Machine.execShlL d a sh s
  | .shrI d a sh => Sys2Proof.Machine.execShrI d a sh s
  | .shrL d a sh => Sys2Proof.Machine.execShrL d a sh s
  | .sclr => Sys2Proof.Machine.execSclr s
  | .sput => Sys2Proof.Machine.execSput s
  | .sget => Sys2Proof.Machine.execSget s
  | .parseI d radix => Sys2Proof.Machine.execParseI d radix s
  | .tostrI a => Sys2Proof.Machine.execTostrI a s
  | .tostrL a => Sys2Proof.Machine.execTostrL a s
  | .decd d => Sys2Proof.Machine.execDecd d s
  | .decf d => Sys2Proof.Machine.execDecf d s

end Sys2Proof.Machine
end

