-- ==== Sys2Proof/Machine/HostPort.lean ====
section
/-! DEFINITION. The host's accesses to the register window (10_state.md §4, 20_memory.md). -/

namespace Sys2Proof.Machine

/-- What a 32-bit read at a window offset returns; CMD and the reserved offsets read 0, and no read has a side effect (R36, R74,
R75). -/
def State.windowRead (s : State) (off : Nat) : Word :=
  if off = 0x04 then s.argLo
  else if off = 0x08 then s.argHi
  else if off = 0x0C then s.resLo
  else if off = 0x10 then s.resHi
  else if off = 0x14 then s.statusWord
  else if off = 0x18 then Config.idWord
  else if off = 0x1C then s.maxw
  else if off = 0x20 then s.strcap
  else if off = 0x24 then s.errcmd
  else 0

/-- A write of a command word to CMD: accepted with BUSY = 0 and ERR = 0, else lost (R37, R280, R310). -/
def State.writeCmd (s : State) (c : Word) : State :=
  if s.busy || s.err then { s with lost := true } else s.accept c

/-- A 32-bit write at a window offset; a read-only register or a reserved offset ignores it (R36, R74). -/
def State.windowWrite (s : State) (off : Nat) (v : Word) : State :=
  if off = 0x00 then s.writeCmd v
  else if off = 0x04 then { s with argLo := v }
  else if off = 0x08 then { s with argHi := v }
  else if off = 0x14 then s.acknowledge v
  else s

/-- The host keeps the word a read returned (log 8). -/
def State.recordRead (s : State) (v : Word) : State := { s with reads := v :: s.reads }

/-- Whether a host address lies in the window (R36, R70, R71). An access is classed by the address of its first byte alone:
one that begins below CORE_BASE and runs into the window is taken as outside it. DESIGN CHOICE, log 16. -/
def State.inWindow (s : State) (addr : Nat) : Bool :=
  decide (s.coreBase ≤ addr ∧ addr < s.coreBase + Config.windowBytes)

/-- Whether an access is one the block defines: 32 bits at an offset that is a multiple of 4 (R72). -/
def State.definedAccess (s : State) (addr bytes : Nat) : Bool :=
  decide (bytes = 4 ∧ (addr - s.coreBase) % 4 = 0)

/-- A host read at a host address. -/
def hostRead (s : State) (addr bytes : Nat) : Host.Outcome State Fault Refusal :=
  if s.inWindow addr then
    if s.definedAccess addr bytes then .next (s.recordRead (s.windowRead (addr - s.coreBase)))
    else .refused (.unmodelledAccess addr bytes)
  else .fault (.outsideWindow addr)

/-- A host write at a host address. -/
def hostWrite (s : State) (addr bytes : Nat) (v : Word) : Host.Outcome State Fault Refusal :=
  if s.inWindow addr then
    if s.definedAccess addr bytes then .next (s.windowWrite (addr - s.coreBase) v)
    else .refused (.unmodelledAccess addr bytes)
  else .fault (.outsideWindow addr)

end Sys2Proof.Machine
end

