-- ==== Sys2Proof/Machine/Engine.lean ====
section
/-! DEFINITION. The engine's turn, and the agents' turns on the tape. -/

namespace Sys2Proof.Machine

/-- The engine runs the command in flight to its completion. A word that matches no row completes with ILLEGAL, before any
register is read (R274, R310, R311). -/
def runCommand (s : State) : Host.Outcome State Fault Refusal :=
  match decode s.curCmd with
  | .ok i => exec i s
  | .error _ => .next (s.raise .illegal)

/-- A turn of the engine: with no command in flight it is idle (R288, R301). -/
def engineTurn (s : State) : Host.Outcome State Fault Refusal :=
  if s.busy then runCommand s else .next s

/-- Take the first event off the tape. -/
def State.popTape (s : State) : State := { s with tape := s.tape.tail }

/-- One event of the tape. A polling host stays at its poll while the engine completes the command in flight, and then reads
STATUS with BUSY = 0 (R97, R311, R312; log 9). -/
def eventTurn (e : Event) (s : State) : Host.Outcome State Fault Refusal :=
  match e with
  | .write addr bytes v => hostWrite s.popTape addr bytes v
  | .read addr bytes => hostRead s.popTape addr bytes
  | .poll => if s.busy then runCommand s else .next (s.popTape.recordRead s.statusWord)
  | .engine => engineTurn s.popTape
  | .reset => .next s.popTape.applyReset

/-- Put the word `c` in flight as an accepted CMD write does (R310), and make the engine's the next turn. Stands for the host's
CMD write (log 2). -/
def State.placeCommand (s : State) (c : Word) : State :=
  { s.accept c with tape := match s.tape with | [] => [] | e :: rest => .engine :: e :: rest }

end Sys2Proof.Machine
end

