-- ==== Sys2Proof/Machine/Step.lean ====
section
/-! DEFINITION. One step of the block and its surroundings. -/

namespace Sys2Proof.Machine

/-- The first event of the tape; with the tape at its end only the engine is left to move, so a command in flight completes
(R311) and an idle block stays as it is (R288, R301; log 1). -/
def step (s : State) : Host.Outcome State Fault Refusal :=
  match s.tape with
  | [] => engineTurn s
  | e :: _ => eventTurn e s

/-- `s` with the instruction of the table's numbering accepted and the engine's turn next (log 2). -/
def State.withFetchWord (s : State) (nbits w : Nat) : State := s.placeCommand (Sys2Proof.tableWord nbits w)

end Sys2Proof.Machine
end

