-- ==== Sys2Proof/Safety.lean ====
section
/-! DEFINITION. The terms the claims use: the invariant of the block's state, what a register holds, what a command gives or
raises, what each command may write, and the values of floating-point patterns. -/

namespace Sys2Proof.Machine

/-- A stored Integer is canonical: its sign word is 0 or all ones and its top word, if any, differs from it (R18, R19). -/
def Canonical (w : List Word) (sg : Word) : Prop := (sg = 0 ∨ sg = signOnes) ∧ w.getLast? ≠ some sg

/-- A register's value is legal in a block of capacity `maxw` (R32, R33). -/
def Value.ok (maxw : Nat) : Value → Prop
  | .empty => True
  | .int w sg => Canonical w sg ∧ w.length ≤ maxw
  | .long _ _ => True

/-- The invariant of the block's state. -/
structure State.Inv (s : State) : Prop where
  /-- the parameters are in their ranges (R11, R12) -/
  params : Config.paramsOk s.maxw.toNat s.strcap.toNat
  /-- every Integer register is canonical and within MAXW words (R32) -/
  regs : ∀ r : Reg, (s.reg r).ok s.maxw.toNat
  /-- STRLEN is in [0, STRCAP] (R35) -/
  textLength : s.strlen ≤ s.strcap.toNat
  /-- the string buffer's storage is in canonical form -/
  bufferForm : Memory.wf s.strbuf
  /-- the string buffer has STRCAP entries (R35) -/
  bufferRange : ∀ c ∈ s.strbuf, c.1 < s.strcap.toNat
  /-- ERR = 0 implies ERRCODE = 0 (R40) -/
  noError : s.err = false → s.errcode = 0
  /-- ERR = 1 comes with one of the codes 1 to 11 (R270) -/
  errorCode : s.err = true → 1 ≤ s.errcode.toNat ∧ s.errcode.toNat ≤ 11
  /-- ERR = 1 implies BUSY = 0 (R40) -/
  errorIdle : s.err = true → s.busy = false
  /-- CMP is never 0b10 (R41) -/
  compare : s.cmp ≠ 0b10
  /-- with BUSY = 0 no in-flight state is held (R48; log 6) -/
  idle : s.busy = false → s.curCmd = 0 ∧ s.aLo = 0 ∧ s.aHi = 0

/-- Register `r` holds an Integer of value `z`. -/
def HoldsInt (s : State) (r : Reg) (z : Int) : Prop := ∃ w sg, s.reg r = .int w sg ∧ intVal w sg = z

/-- Register `r` holds a Long of value `z`. -/
def HoldsLong (s : State) (r : Reg) (z : Int) : Prop := ∃ low high, s.reg r = .long low high ∧ longVal low high = z

/-- Reading register `r` as an Integer fails with `e` (R34). -/
def FailsInt (s : State) (r : Reg) (e : Err) : Prop :=
  (s.reg r = .empty ∧ e = .unwritten) ∨ (∃ low high, s.reg r = .long low high ∧ e = .type)

/-- Reading register `r` as a Long fails with `e` (R34). -/
def FailsLong (s : State) (r : Reg) (e : Err) : Prop :=
  (s.reg r = .empty ∧ e = .unwritten) ∨ (∃ w sg, s.reg r = .int w sg ∧ e = .type)

/-- The integer `z` has a canonical form of at most MAXW words (R11). -/
def Fits (s : State) (z : Int) : Prop :=
  -((2 ^ (32 * s.maxw.toNat) : Nat) : Int) ≤ z ∧ z < ((2 ^ (32 * s.maxw.toNat) : Nat) : Int)

/-- The value is the canonical Integer of `z`. -/
def IsInt (v : Value) (z : Int) : Prop := ∃ w sg, v = .int w sg ∧ Canonical w sg ∧ intVal w sg = z

/-- The value is the Long of `z`. -/
def IsLong (v : Value) (z : Int) : Prop := ∃ low high, v = .long low high ∧ longVal low high = z

/-- The command completes, and all it changes is that register `d` holds the canonical Integer of `z` and that no command is in
flight any more. -/
def GivesInt (i : Instr) (s : State) (d : Reg) (z : Int) : Prop :=
  ∃ v, IsInt v z ∧ exec i s =
    .next { s with x := s.x.set d.toNat v d.isLt, busy := false, curCmd := 0, aLo := 0, aHi := 0 }

/-- The command completes, and all it changes is that register `d` holds the Long of `z` and that no command is in flight any
more. -/
def GivesLong (i : Instr) (s : State) (d : Reg) (z : Int) : Prop :=
  ∃ v, IsLong v z ∧ exec i s =
    .next { s with x := s.x.set d.toNat v d.isLt, busy := false, curCmd := 0, aLo := 0, aHi := 0 }

/-- The command completes, and all it changes is RES_LO and RES_HI and that no command is in flight any more. -/
def GivesResult (i : Instr) (s : State) (lo hi : Word) : Prop :=
  exec i s = .next { s with resLo := lo, resHi := hi, busy := false, curCmd := 0, aLo := 0, aHi := 0 }

/-- The command completes with error code `code`: ERR, ERRCODE and ERRCMD record it, no command is in flight any more, and
nothing else changes (R271). -/
def Raises (i : Instr) (s : State) (code : BitVec 4) : Prop :=
  exec i s = .next { s with err := true, errcode := code, errcmd := s.curCmd,
                            busy := false, curCmd := 0, aLo := 0, aHi := 0 }

/-- The compare command completes, and all it changes is RES_LO, RES_HI and STATUS.CMP and that no command is in flight any
more. -/
def GivesCompare (i : Instr) (s : State) (lo : Word) (c : BitVec 2) : Prop :=
  exec i s = .next { s with resLo := lo, resHi := 0, cmp := c, busy := false, curCmd := 0, aLo := 0, aHi := 0 }

/-- The three outcomes of comparing `p` with `q` (R41, R200). -/
def Compares (i : Instr) (s : State) (p q : Int) : Prop :=
  (p < q → GivesCompare i s 0xFFFFFFFF 0b11) ∧ (p = q → GivesCompare i s 0 0b00) ∧ (q < p → GivesCompare i s 1 0b01)

/-- The errors of reading one Integer operand (R273). -/
def ChecksInt (i : Instr) (s : State) (a : Reg) : Prop := ∀ e : Err, FailsInt s a e → Raises i s e.code

/-- The errors of reading one Long operand (R273). -/
def ChecksLong (i : Instr) (s : State) (a : Reg) : Prop := ∀ e : Err, FailsLong s a e → Raises i s e.code

/-- The errors of reading two Integer operands, the first before the second (R273). -/
def ChecksInts (i : Instr) (s : State) (a b : Reg) : Prop :=
  ChecksInt i s a ∧ ∀ p : Int, HoldsInt s a p → ChecksInt i s b

/-- The errors of reading two Long operands, the first before the second (R273). -/
def ChecksLongs (i : Instr) (s : State) (a b : Reg) : Prop :=
  ChecksLong i s a ∧ ∀ p : Int, HoldsLong s a p → ChecksLong i s b

/-- The Integer `z` is written if it fits, else CAPACITY is raised (R272). -/
def WritesIntOrCapacity (i : Instr) (s : State) (d : Reg) (z : Int) : Prop :=
  (Fits s z → GivesInt i s d z) ∧ (¬Fits s z → Raises i s 9)

/-- The register a command writes, if any. -/
def destination : Instr → Option Reg
  | .movI d _ | .movL d _ | .ldiI d | .ldiL d | .ldpI d | .ldpL d | .wpushI d | .ldnI d | .ldnL d => some d
  | .cvtI d _ | .cvtL d _ | .negI d _ | .negL d _ | .notI d _ | .notL d _ => some d
  | .addI d _ _ | .addL d _ _ | .subI d _ _ | .subL d _ _ | .mulI d _ _ | .mulL d _ _ => some d
  | .quotI d _ _ | .quotL d _ _ | .remI d _ _ | .remL d _ _ => some d
  | .divI d _ _ | .divL d _ _ | .modI d _ _ | .modL d _ _ => some d
  | .andI d _ _ | .andL d _ _ | .orI d _ _ | .orL d _ _ | .xorI d _ _ | .xorL d _ _ => some d
  | .shlI d _ _ | .shlL d _ _ | .shrI d _ _ | .shrL d _ _ => some d
  | .parseI d _ | .decd d | .decf d => some d
  | .nop | .rdwI _ | .rdwL _ | .lenI _ | .tonatI _ | .tonatL _ => none
  | .cmpI _ _ | .cmpL _ _ | .sgnI _ | .sgnL _ => none
  | .sclr | .sput | .sget | .tostrI _ | .tostrL _ => none

/-- The commands that write RES_LO and RES_HI. -/
def writesResult : Instr → Bool
  | .rdwI _ | .rdwL _ | .lenI _ | .tonatI _ | .tonatL _ => true
  | .cmpI _ _ | .cmpL _ _ | .sgnI _ | .sgnL _ => true
  | .sget | .tostrI _ | .tostrL _ | .decd _ | .decf _ => true
  | .nop | .movI _ _ | .movL _ _ | .ldiI _ | .ldiL _ | .ldpI _ | .ldpL _ | .wpushI _ | .ldnI _ | .ldnL _ => false
  | .cvtI _ _ | .cvtL _ _ | .negI _ _ | .negL _ _ | .notI _ _ | .notL _ _ => false
  | .addI _ _ _ | .addL _ _ _ | .subI _ _ _ | .subL _ _ _ | .mulI _ _ _ | .mulL _ _ _ => false
  | .quotI _ _ _ | .quotL _ _ _ | .remI _ _ _ | .remL _ _ _ => false
  | .divI _ _ _ | .divL _ _ _ | .modI _ _ _ | .modL _ _ _ => false
  | .andI _ _ _ | .andL _ _ _ | .orI _ _ _ | .orL _ _ _ | .xorI _ _ _ | .xorL _ _ _ => false
  | .shlI _ _ _ | .shlL _ _ _ | .shrI _ _ _ | .shrL _ _ _ => false
  | .parseI _ _ | .sclr | .sput => false

/-- The commands that write STATUS.CMP (R41). -/
def writesCompare (i : Instr) : Bool :=
  match i with
  | .cmpI _ _ | .cmpL _ _ | .sgnI _ | .sgnL _ => true
  | _ => false

/-- The commands that write STRLEN (R35). -/
def writesText (i : Instr) : Bool :=
  match i with
  | .sclr | .sput | .tostrI _ | .tostrL _ => true
  | _ => false

/-- The commands that can raise CAPACITY (R270). -/
def mayRaiseCapacity (i : Instr) : Bool :=
  match i with
  | .addI _ _ _ | .subI _ _ _ | .negI _ _ | .mulI _ _ _ | .quotI _ _ _ | .divI _ _ _ => true
  | .shlI _ _ _ | .wpushI _ | .ldnI _ | .parseI _ _ => true
  | _ => false

/-- The rational a floating-point value is, if it is finite. -/
def Double.rational : Double → Option ℚ
  | .nan => none
  | .inf _ => none
  | .finite neg m e => some ((if neg then -1 else 1) * (m : ℚ) * (2 : ℚ) ^ e)

/-- The value a finite binary64 pattern denotes (R121); `f64` tells the others, NaN and the two infinities, apart. -/
def f64Value (b : BitVec 64) : Option ℚ :=
  if f64Exp b = 2047 then none
  else if f64Exp b = 0 then some ((if f64Sign b then -1 else 1) * (f64Frac b : ℚ) * (2 : ℚ) ^ (-1074 : ℤ))
  else some ((if f64Sign b then -1 else 1) * ((2 : ℚ) ^ (52 : ℤ) + (f64Frac b : ℚ)) * (2 : ℚ) ^ ((f64Exp b : ℤ) - 1075))

/-- The value a finite binary32 pattern denotes (R261); `f32` tells the others, NaN and the two infinities, apart. -/
def f32Value (b : Word) : Option ℚ :=
  if f32Exp b = 255 then none
  else if f32Exp b = 0 then some ((if f32Sign b then -1 else 1) * (f32Frac b : ℚ) * (2 : ℚ) ^ (-149 : ℤ))
  else some ((if f32Sign b then -1 else 1) * ((2 : ℚ) ^ (23 : ℤ) + (f32Frac b : ℚ)) * (2 : ℚ) ^ ((f32Exp b : ℤ) - 150))

/-- `z` is `v` truncated toward zero (R131). -/
def IsTrunc (v : ℚ) (z : Int) : Prop := (0 ≤ v → z = ⌊v⌋) ∧ (v < 0 → z = ⌈v⌉)

/-- `b` is the double of the integer `z` (R122): +0 for 0, an infinity of `z`'s sign from 2^1024 - 2^970 on, and else the
finite double nearest to `z`, with an even significand where another finite double is as near. -/
def IsNearestDouble (z : Int) (b : BitVec 64) : Prop :=
  (z = 0 → b = 0) ∧
  ((2 : ℤ) ^ 1024 - 2 ^ 970 ≤ z → b = 0x7FF0000000000000) ∧
  (z ≤ -((2 : ℤ) ^ 1024 - 2 ^ 970) → b = 0xFFF0000000000000) ∧
  (|z| < (2 : ℤ) ^ 1024 - 2 ^ 970 → ∃ v : ℚ, f64Value b = some v ∧
    ∀ (b' : BitVec 64) (v' : ℚ), f64Value b' = some v' →
      |(z : ℚ) - v| ≤ |(z : ℚ) - v'| ∧ (v' ≠ v → |(z : ℚ) - v'| = |(z : ℚ) - v| → b.getLsbD 0 = false))

/-- Every code is a decimal digit (R230). -/
def IsDigits (t : List Byte) : Prop := ∀ c ∈ t, 0x30 ≤ c.toNat ∧ c.toNat ≤ 0x39

/-- The number a sequence of decimal digit codes denotes. -/
def decimalValue (t : List Byte) : Nat := t.foldl (fun acc c => 10 * acc + (c.toNat - 0x30)) 0

/-- `t` is `dec(z)` (R233): `0` for zero; else the digits with no leading zero, after a `-` for a negative number. -/
def IsDecimalText (t : List Byte) (z : Int) : Prop :=
  (z = 0 → t = [0x30]) ∧
  (0 < z → IsDigits t ∧ t.head? ≠ some 0x30 ∧ t ≠ [] ∧ (decimalValue t : Int) = z) ∧
  (z < 0 → ∃ u, t = 0x2D :: u ∧ IsDigits u ∧ u.head? ≠ some 0x30 ∧ u ≠ [] ∧ (decimalValue u : Int) = -z)

/-- The value of a digit code in radices up to 36, if it is one (R231). -/
def digitOf (c : Byte) : Option Nat :=
  if 0x30 ≤ c.toNat ∧ c.toNat ≤ 0x39 then some (c.toNat - 0x30)
  else if 0x41 ≤ c.toNat ∧ c.toNat ≤ 0x5A then some (c.toNat - 0x41 + 10)
  else if 0x61 ≤ c.toNat ∧ c.toNat ≤ 0x7A then some (c.toNat - 0x61 + 10)
  else none

/-- `body` is a digit string of radix `r` whose positional sum is `m` (R232). -/
inductive IsNumeral (r : Nat) : List Byte → Nat → Prop where
  | nil : IsNumeral r [] 0
  | cons (c : Byte) (k m : Nat) (t : List Byte) (hk : digitOf c = some k) (hr : k < r) (ht : IsNumeral r t m) :
      IsNumeral r (c :: t) (k * r ^ t.length + m)

/-- An access of the tape that the block defines (R36, R72). -/
def DefinedEvent (s : State) : Event → Prop
  | .write addr bytes _ => s.inWindow addr = true ∧ s.definedAccess addr bytes = true
  | .read addr bytes => s.inWindow addr = true ∧ s.definedAccess addr bytes = true
  | .poll => True
  | .engine => True
  | .reset => True

/-- The mnemonic of a command's row (R94). -/
def mnemonic : Instr → String
  | .nop => "NOP"
  | .movI _ _ => "MOV.I"
  | .movL _ _ => "MOV.L"
  | .ldiI _ => "LDI.I"
  | .ldiL _ => "LDI.L"
  | .ldpI _ => "LDP.I"
  | .ldpL _ => "LDP.L"
  | .wpushI _ => "WPUSH.I"
  | .ldnI _ => "LDN.I"
  | .ldnL _ => "LDN.L"
  | .cvtI _ _ => "CVT.I"
  | .cvtL _ _ => "CVT.L"
  | .rdwI _ => "RDW.I"
  | .rdwL _ => "RDW.L"
  | .lenI _ => "LEN.I"
  | .tonatI _ => "TONAT.I"
  | .tonatL _ => "TONAT.L"
  | .addI _ _ _ => "ADD.I"
  | .addL _ _ _ => "ADD.L"
  | .subI _ _ _ => "SUB.I"
  | .subL _ _ _ => "SUB.L"
  | .negI _ _ => "NEG.I"
  | .negL _ _ => "NEG.L"
  | .mulI _ _ _ => "MUL.I"
  | .mulL _ _ _ => "MUL.L"
  | .quotI _ _ _ => "QUOT.I"
  | .quotL _ _ _ => "QUOT.L"
  | .remI _ _ _ => "REM.I"
  | .remL _ _ _ => "REM.L"
  | .divI _ _ _ => "DIV.I"
  | .divL _ _ _ => "DIV.L"
  | .modI _ _ _ => "MOD.I"
  | .modL _ _ _ => "MOD.L"
  | .cmpI _ _ => "CMP.I"
  | .cmpL _ _ => "CMP.L"
  | .sgnI _ => "SGN.I"
  | .sgnL _ => "SGN.L"
  | .andI _ _ _ => "AND.I"
  | .andL _ _ _ => "AND.L"
  | .orI _ _ _ => "OR.I"
  | .orL _ _ _ => "OR.L"
  | .xorI _ _ _ => "XOR.I"
  | .xorL _ _ _ => "XOR.L"
  | .notI _ _ => "NOT.I"
  | .notL _ _ => "NOT.L"
  | .shlI _ _ _ => "SHL.I"
  | .shlL _ _ _ => "SHL.L"
  | .shrI _ _ _ => "SHR.I"
  | .shrL _ _ _ => "SHR.L"
  | .sclr => "SCLR"
  | .sput => "SPUT"
  | .sget => "SGET"
  | .parseI _ _ => "PARSE.I"
  | .tostrI _ => "TOSTR.I"
  | .tostrL _ => "TOSTR.L"
  | .decd _ => "DECD"
  | .decf _ => "DECF"

/-- The rows of the opcode map: mnemonic, match, mask (R94). -/
def opcodeMap : List (String × Word × Word) :=
  [("NOP", 0x00000000, 0xFFFFFFFF),
   ("MOV.I", 0x04000000, 0xFFF00FFF),
   ("MOV.L", 0x06000000, 0xFFF00FFF),
   ("LDI.I", 0x08000000, 0xFFF0FFFF),
   ("LDI.L", 0x0A000000, 0xFFF0FFFF),
   ("LDP.I", 0x0C000000, 0xFFF0FFFF),
   ("LDP.L", 0x0E000000, 0xFFF0FFFF),
   ("WPUSH.I", 0x10000000, 0xFFF0FFFF),
   ("LDN.I", 0x14000000, 0xFFF0FFFF),
   ("LDN.L", 0x16000000, 0xFFF0FFFF),
   ("CVT.I", 0x18000000, 0xFFF00FFF),
   ("CVT.L", 0x1A000000, 0xFFF00FFF),
   ("RDW.I", 0x1C000000, 0xFFFF0FFF),
   ("RDW.L", 0x1E000000, 0xFFFF0FFF),
   ("LEN.I", 0x20000000, 0xFFFF0FFF),
   ("TONAT.I", 0x24000000, 0xFFFF0FFF),
   ("TONAT.L", 0x26000000, 0xFFFF0FFF)] ++
  [("ADD.I", 0x40000000, 0xFFF000FF),
   ("ADD.L", 0x42000000, 0xFFF000FF),
   ("SUB.I", 0x44000000, 0xFFF000FF),
   ("SUB.L", 0x46000000, 0xFFF000FF),
   ("NEG.I", 0x48000000, 0xFFF00FFF),
   ("NEG.L", 0x4A000000, 0xFFF00FFF),
   ("MUL.I", 0x4C000000, 0xFFF000FF),
   ("MUL.L", 0x4E000000, 0xFFF000FF)] ++
  [("QUOT.I", 0x50000000, 0xFFF000FF),
   ("QUOT.L", 0x52000000, 0xFFF000FF),
   ("REM.I", 0x54000000, 0xFFF000FF),
   ("REM.L", 0x56000000, 0xFFF000FF),
   ("DIV.I", 0x58000000, 0xFFF000FF),
   ("DIV.L", 0x5A000000, 0xFFF000FF),
   ("MOD.I", 0x5C000000, 0xFFF000FF),
   ("MOD.L", 0x5E000000, 0xFFF000FF)] ++
  [("CMP.I", 0x60000000, 0xFFFF00FF),
   ("CMP.L", 0x62000000, 0xFFFF00FF),
   ("SGN.I", 0x64000000, 0xFFFF0FFF),
   ("SGN.L", 0x66000000, 0xFFFF0FFF)] ++
  [("AND.I", 0x68000000, 0xFFF000FF),
   ("AND.L", 0x6A000000, 0xFFF000FF),
   ("OR.I", 0x6C000000, 0xFFF000FF),
   ("OR.L", 0x6E000000, 0xFFF000FF),
   ("XOR.I", 0x70000000, 0xFFF000FF),
   ("XOR.L", 0x72000000, 0xFFF000FF),
   ("NOT.I", 0x74000000, 0xFFF00FFF),
   ("NOT.L", 0x76000000, 0xFFF00FFF),
   ("SHL.I", 0x78000000, 0xFFF00000),
   ("SHL.L", 0x7A000000, 0xFFF00000),
   ("SHR.I", 0x7C000000, 0xFFF00000),
   ("SHR.L", 0x7E000000, 0xFFF00000)] ++
  [("SCLR", 0x80000000, 0xFFFFFFFF),
   ("SPUT", 0x84000000, 0xFFFFFFFF),
   ("SGET", 0x88000000, 0xFFFFFFFF),
   ("PARSE.I", 0x8C000000, 0xFFF0FF00),
   ("TOSTR.I", 0x90000000, 0xFFFF0FFF),
   ("TOSTR.L", 0x92000000, 0xFFFF0FFF)] ++
  [("DECD", 0xA0000000, 0xFFF0FFFF),
   ("DECF", 0xA4000000, 0xFFF0FFFF)]

end Sys2Proof.Machine
end

