-- ==== Sys2Proof/Certificates/Slice0/Obligations.lean ====
section
/-! DEFINITION. The statements for the provers, from the numbered rules of spec/. -/

open Sys2Proof Sys2Proof.Machine

/-! ### Encoding and decoding -/

/-- R90, R92, R94: the encoder's word of a well-formed command is read back as that command, every operand kept. -/
def Obligations.DecodeOfEncodeIsTheCommand : Prop :=
  ∀ i : Instr, i.wf = true → decode (encode i) = .ok i

/-- R90, R94: a word has one meaning: the command a word is read as encodes to that word, and is well formed. -/
def Obligations.EncodeOfDecodeIsTheWord : Prop :=
  ∀ (w : Word) (i : Instr), decode w = .ok i → encode i = w ∧ i.wf = true

/-- R91: a word that selects a row of the opcode map is that row's command; a word that selects no row completes with ILLEGAL
(code 1), and nothing else changes. -/
def Obligations.WordsSelectTheirRowOrRaiseIllegal : Prop :=
  ∀ w : Word,
    (∀ row ∈ opcodeMap, w &&& row.2.2 = row.2.1 → ∃ i, decode w = .ok i ∧ mnemonic i = row.1) ∧
    ((∀ row ∈ opcodeMap, w &&& row.2.2 ≠ row.2.1) → ∀ s : State, s.busy = true → s.curCmd = w →
      (s.tape = [] → step s = .next { s with
        err := true, errcode := 1, errcmd := w, busy := false, curCmd := 0, aLo := 0, aHi := 0 }) ∧
      (∀ rest, s.tape = .engine :: rest → step s = .next { s with
        tape := rest, err := true, errcode := 1, errcmd := w, busy := false, curCmd := 0, aLo := 0, aHi := 0 }))

/-- R95, R274: the reserved OPC values, T = 1 on an opcode that has no Long form, and a nonzero Z are no command. -/
def Obligations.ReservedEncodingsAreNoCommand : Prop :=
  ∀ w : Word,
    (((w.toNat / 2 ^ 26) ∈ [0x0A, 0x0B, 0x0C, 0x0D, 0x0E, 0x0F, 0x25, 0x26, 0x27] ∨ 0x2A ≤ w.toNat / 2 ^ 26) →
      decode w = .error .reservedOpcode) ∧
    (w.toNat / 2 ^ 26 ∈ [0x00, 0x04, 0x08, 0x20, 0x21, 0x22, 0x23, 0x28, 0x29] → w.getLsbD 25 = true →
      decode w = .error .typeBit) ∧
    (w.extractLsb' 20 5 ≠ 0 → ∀ i, decode w ≠ .ok i)

/-- R94 and the examples of the command rules: words written out in the spec are the commands they stand for. -/
def Obligations.SpecWordsDecodeToTheirCommands : Prop :=
  decode 0x04021000 = .ok (.movI 2 1) ∧ decode 0x0E010000 = .ok (.ldpL 1) ∧ decode 0x42031200 = .ok (.addL 3 1 2) ∧
  decode 0x5C031200 = .ok (.modI 3 1 2) ∧ decode 0x60001200 = .ok (.cmpI 1 2) ∧ decode 0x7A021028 = .ok (.shlL 2 1 40) ∧
  decode 0x8C010010 = .ok (.parseI 1 16) ∧ decode 0x92001000 = .ok (.tostrL 1) ∧ decode 0xA4010000 = .ok (.decf 1)

/-! ### Steps, the host's accesses, reset -/

/-- R311 (and logs 1 and 9 for whose turn it is): at an engine's turn, at a host's poll and at the end of the tape, a step with a
command in flight is `exec` of the decoded command; the engine's turn is taken off the tape first. -/
def Obligations.StepRunsTheCommandInFlight : Prop :=
  ∀ (s : State) (i : Instr), s.busy = true → decode s.curCmd = .ok i →
    (s.tape = [] → step s = exec i s) ∧
    (∀ rest, s.tape = .engine :: rest → step s = exec i { s with tape := rest }) ∧
    (∀ rest, s.tape = .poll :: rest → step s = exec i s)

/-- R288, R301, R97 (and logs 1 and 9): with no command in flight the engine changes nothing, and a polling host reads STATUS and
goes on. -/
def Obligations.IdleBlockKeepsItsState : Prop :=
  ∀ s : State, s.busy = false →
    (s.tape = [] → step s = .next s) ∧
    (∀ rest, s.tape = .engine :: rest → step s = .next { s with tape := rest }) ∧
    (∀ rest, s.tape = .poll :: rest → step s = .next { s with tape := rest, reads := s.statusWord :: s.reads })

/-- R37, R310: a CMD write is accepted with BUSY = 0 and ERR = 0, and lost otherwise; a CMD read returns 0. -/
def Obligations.CmdWriteIsAcceptedOrLost : Prop :=
  ∀ (s : State) (c : Word) (rest : List Event),
    (s.tape = .write s.coreBase 4 c :: rest → s.busy = false → s.err = false →
      step s = .next { s with tape := rest, curCmd := c, aLo := s.argLo, aHi := s.argHi, busy := true }) ∧
    (s.tape = .write s.coreBase 4 c :: rest → (s.busy = true ∨ s.err = true) →
      step s = .next { s with tape := rest, lost := true }) ∧
    (s.tape = .read s.coreBase 4 :: rest → step s = .next { s with tape := rest, reads := 0 :: s.reads })

/-- R45: a STATUS write clears ERR and ERRCODE where bit 1 is set and LOST where bit 2 is set, whatever BUSY is, and does nothing
else. -/
def Obligations.StatusWriteClearsWhatItsBitsSay : Prop :=
  ∀ (s : State) (v : Word) (rest : List Event), s.tape = .write (s.coreBase + 0x14) 4 v :: rest →
    step s = .next { s with
      tape := rest
      err := s.err && !v.getLsbD 1
      errcode := if v.getLsbD 1 = true then 0 else s.errcode
      lost := s.lost && !v.getLsbD 2 }

/-- R38, R314: a write of ARG_LO or ARG_HI stores the word at once, whatever BUSY is, the command in flight completes as it
would have, and the next command accepted uses the new values. -/
def Obligations.ArgumentWritesLeaveTheCommandInFlightAlone : Prop :=
  (∀ (s : State) (v : Word) (rest : List Event),
    (s.tape = .write (s.coreBase + 0x04) 4 v :: rest → step s = .next { s with tape := rest, argLo := v }) ∧
    (s.tape = .write (s.coreBase + 0x08) 4 v :: rest → step s = .next { s with tape := rest, argHi := v })) ∧
  (∀ (i : Instr) (s t : State) (u v : Word), exec i s = .next t →
    exec i { s with argLo := u, argHi := v } = .next { t with argLo := u, argHi := v }) ∧
  (∀ (s : State) (u v c : Word) (rest : List Event), s.tape = .write s.coreBase 4 c :: rest → s.busy = false →
    s.err = false → step { s with argLo := u, argHi := v } =
      .next { s with tape := rest, argLo := u, argHi := v, curCmd := c, aLo := u, aHi := v, busy := true })

/-- R74: reads of CMD and of a reserved offset return 0, and a write to a reserved offset or a read-only register is ignored;
none sets LOST or raises an error. -/
def Obligations.ReservedAndReadOnlyOffsets : Prop :=
  ∀ (s : State) (v : Word) (off : Nat) (rest : List Event),
    (off ∈ [0x00, 0x28, 0x2C, 0x30, 0x34, 0x38, 0x3C] → s.tape = .read (s.coreBase + off) 4 :: rest →
      step s = .next { s with tape := rest, reads := 0 :: s.reads }) ∧
    (off ∈ [0x0C, 0x10, 0x18, 0x1C, 0x20, 0x24, 0x28, 0x2C, 0x30, 0x34, 0x38, 0x3C] →
      s.tape = .write (s.coreBase + off) 4 v :: rest → step s = .next { s with tape := rest })

/-- R36, R42, R43, R75: a read of a register returns it and has no effect on the block; ID reads 0x434F5245, MAXW and STRCAP read
the parameters, and writes to these three are ignored. -/
def Obligations.WindowReadsReturnTheRegisters : Prop :=
  ∀ (s : State) (rest : List Event),
    (∀ p ∈ [(0x04, s.argLo), (0x08, s.argHi), (0x0C, s.resLo), (0x10, s.resHi), (0x14, s.statusWord),
            (0x18, (0x434F5245 : Word)), (0x1C, s.maxw), (0x20, s.strcap), (0x24, s.errcmd)],
      s.tape = .read (s.coreBase + p.1) 4 :: rest → step s = .next { s with tape := rest, reads := p.2 :: s.reads }) ∧
    (∀ (v : Word), ∀ off ∈ [0x18, 0x1C, 0x20],
      s.tape = .write (s.coreBase + off) 4 v :: rest → step s = .next { s with tape := rest })

/-- R40: where STATUS has its fields, that its reserved bits read 0, and its two invariants (in states that meet the model's
invariant). -/
def Obligations.StatusWordShowsItsFields : Prop :=
  ∀ s : State,
    s.statusWord.getLsbD 0 = s.busy ∧ s.statusWord.getLsbD 1 = s.err ∧ s.statusWord.getLsbD 2 = s.lost ∧
    s.statusWord.getLsbD 3 = false ∧ s.statusWord.extractLsb' 4 4 = s.errcode ∧ s.statusWord.extractLsb' 8 2 = s.cmp ∧
    (∀ k, 10 ≤ k → s.statusWord.getLsbD k = false) ∧
    (s.Inv → (s.statusWord.getLsbD 1 = false → s.statusWord.extractLsb' 4 4 = 0) ∧
      (s.statusWord.getLsbD 1 = true → s.statusWord.getLsbD 0 = false))

/-- R72: a host access in the window of a width other than 32 bits, or at an offset that is not a multiple of 4, is refused. -/
def Obligations.UndefinedAccessIsRefused : Prop :=
  ∀ (s : State) (addr bytes : Nat) (v : Word) (rest : List Event),
    s.coreBase ≤ addr → addr < s.coreBase + 64 → (bytes ≠ 4 ∨ ¬ 4 ∣ addr - s.coreBase) →
    (s.tape = .write addr bytes v :: rest → step s = .refused (.unmodelledAccess addr bytes)) ∧
    (s.tape = .read addr bytes :: rest → step s = .refused (.unmodelledAccess addr bytes))

/-- The model's choice of logs 10 and 16 (R71 gives the window only, R72 does not speak of an overlap): an access whose first byte
lies outside the window faults, whatever its width, even where it runs into the window. -/
def Obligations.AccessOutsideTheWindowFaults : Prop :=
  ∀ (s : State) (addr bytes : Nat) (v : Word) (rest : List Event),
    (addr < s.coreBase ∨ s.coreBase + 64 ≤ addr) →
    (s.tape = .write addr bytes v :: rest → step s = .fault (.outsideWindow addr)) ∧
    (s.tape = .read addr bytes :: rest → step s = .fault (.outsideWindow addr))

/-- R50, R300, R302: reset may come in any state, a busy one too; after it every piece of state has its reset value and nothing of
a command in flight takes effect. That MAXW, STRCAP, CORE_BASE, the tape and the reads are as they were is the model's reading
(log 14). -/
def Obligations.ResetGivesTheResetState : Prop :=
  ∀ (s : State) (rest : List Event), s.tape = .reset :: rest → ∃ t, step s = .next t ∧
    (∀ r, t.reg r = .empty) ∧ t.strlen = 0 ∧ t.argLo = 0 ∧ t.argHi = 0 ∧ t.resLo = 0 ∧ t.resHi = 0 ∧
    t.statusWord = 0 ∧ t.errcmd = 0 ∧ t.busy = false ∧
    t.maxw = s.maxw ∧ t.strcap = s.strcap ∧ t.coreBase = s.coreBase ∧ t.tape = rest ∧ t.reads = s.reads

/-- R11, R12, R50: the reset state of every block whose parameters are in range meets the invariant; so does `State.reset`, whose
parameter values are the model's choice (log 3). -/
def Obligations.ResetMeetsTheInvariant : Prop :=
  (∀ (maxw strcap : Word) (base : Nat), Config.paramsOk maxw.toNat strcap.toNat → (State.resetWith maxw strcap base).Inv) ∧
  State.reset.Inv

/-- R32, R35, R40, R41, R48: from every state that meets the invariant, a step that answers gives one that meets it. -/
def Obligations.EveryStepKeepsTheInvariant : Prop :=
  ∀ s t : State, s.Inv → step s = .next t → t.Inv

/-- R311, R318: every command completes from every state, with no command in flight any more. -/
def Obligations.EveryCommandCompletes : Prop :=
  ∀ (i : Instr) (s : State), ∃ t, exec i s = .next t ∧ t.busy = false ∧ t.curCmd = 0 ∧ t.aLo = 0 ∧ t.aHi = 0

/-- R14, R311 (with the tape of log 1): a command in flight ends within one step more than the tape has events, whatever defined
accesses the host makes meanwhile. -/
def Obligations.BusyEndsWithinTheTape : Prop :=
  ∀ s : State, s.busy = true → (∀ e ∈ s.tape, DefinedEvent s e) →
    ∃ (k : Nat) (t : State), k ≤ s.tape.length + 1 ∧ Host.Core.run Sys2Proof.core k s = .next t ∧ t.busy = false

/-! ### Errors, and what a command leaves alone -/

/-- R271, R278: a command either completes with an error, and then ERR, ERRCODE, ERRCMD and the in-flight state are all it
changes, or leaves ERR, ERRCODE and ERRCMD as they were. -/
def Obligations.ErrorsArePrecise : Prop :=
  ∀ (i : Instr) (s t : State), exec i s = .next t →
    (∃ code : BitVec 4, 1 ≤ code.toNat ∧ code.toNat ≤ 11 ∧ Raises i s code) ∨
    (t.err = s.err ∧ t.errcode = s.errcode ∧ t.errcmd = s.errcmd ∧ t.busy = false)

/-- R270, R272: in a state that meets the invariant and has no error recorded, CAPACITY (code 9) is raised only by the commands
rule R270 lists for it. -/
def Obligations.OnlyListedCommandsRaiseCapacity : Prop :=
  ∀ (i : Instr) (s : State), s.Inv → s.err = false → Raises i s 9 → mayRaiseCapacity i = true

/-- R38, R45, R43, R280: no command changes ARG_LO, ARG_HI, LOST, MAXW, STRCAP or CORE_BASE (nor the model's tape and reads). -/
def Obligations.CommandsLeaveTheHostSideAlone : Prop :=
  ∀ (i : Instr) (s t : State), exec i s = .next t →
    t.argLo = s.argLo ∧ t.argHi = s.argHi ∧ t.lost = s.lost ∧ t.maxw = s.maxw ∧ t.strcap = s.strcap ∧
    t.coreBase = s.coreBase ∧ t.tape = s.tape ∧ t.reads = s.reads

/-- R26 and the command rules: every register other than the command's destination is unchanged. -/
def Obligations.OnlyTheDestinationRegisterChanges : Prop :=
  ∀ (i : Instr) (s t : State) (r : Reg), exec i s = .next t → destination i ≠ some r → t.reg r = s.reg r

/-- R39, R41: the commands that give no result word leave RES_LO and RES_HI unchanged, and every command but CMP and SGN leaves
STATUS.CMP unchanged. -/
def Obligations.ResultAndCompareFrame : Prop :=
  ∀ (i : Instr) (s t : State), exec i s = .next t →
    (writesResult i = false → t.resLo = s.resLo ∧ t.resHi = s.resHi) ∧ (writesCompare i = false → t.cmp = s.cmp)

/-- R35, R234 to R239: which entries of the string buffer a command leaves alone: all of them for the commands that do not write
it and for SCLR, all but entry STRLEN for SPUT, all from the new text's length on for TOSTR. -/
def Obligations.StringBufferFrame : Prop :=
  ∀ (i : Instr) (s t : State), exec i s = .next t →
    (writesText i = false → t.strlen = s.strlen ∧ ∀ k, Memory.read t.strbuf k = Memory.read s.strbuf k) ∧
    (i = .sclr → ∀ k, Memory.read t.strbuf k = Memory.read s.strbuf k) ∧
    (i = .sput → ∀ k, k ≠ s.strlen → Memory.read t.strbuf k = Memory.read s.strbuf k) ∧
    (∀ a, (i = .tostrI a ∨ i = .tostrL a) → ∀ k, t.strlen ≤ k → Memory.read t.strbuf k = Memory.read s.strbuf k)

/-- R31, R35, R39, R44: the host's accesses never change a value register, the string buffer, RES, CMP or ERRCMD. -/
def Obligations.HostAccessesNeverTouchValues : Prop :=
  ∀ (s t : State) (e : Event) (rest : List Event), s.tape = e :: rest →
    (∃ addr bytes, e = .read addr bytes ∨ ∃ v, e = .write addr bytes v) → step s = .next t →
    t.x = s.x ∧ t.strbuf = s.strbuf ∧ t.strlen = s.strlen ∧ t.resLo = s.resLo ∧ t.resHi = s.resHi ∧ t.cmp = s.cmp ∧
    t.errcmd = s.errcmd

/-- R35, R50: the entries of the string buffer at and beyond STRLEN cannot be seen: with two buffers that agree below STRLEN, a
command gives the same state but for the buffer, and the same text. -/
def Obligations.EntriesBeyondTheTextAreUnobservable : Prop :=
  ∀ (i : Instr) (s t t' : State) (m : Memory), Memory.wf s.strbuf → Memory.wf m →
    (∀ k, k < s.strlen → Memory.read m k = Memory.read s.strbuf k) →
    exec i s = .next t → exec i { s with strbuf := m } = .next t' →
    t' = { t with strbuf := t'.strbuf } ∧ t'.text = t.text

/-! ### The stored form of values -/

/-- R19: every integer has exactly one canonical form, `mkInt` gives it, and its length is the least that leaves the sign. -/
def Obligations.EveryIntegerHasOneCanonicalForm : Prop :=
  (∀ (w w' : List Word) (sg sg' : Word), Canonical w sg → Canonical w' sg' → intVal w sg = intVal w' sg' →
    w = w' ∧ sg = sg') ∧
  (∀ z : Int, ∃ w sg, mkInt z = .int w sg ∧ Canonical w sg ∧ intVal w sg = z ∧ (sg = 0xFFFFFFFF ↔ z < 0) ∧
    z / 2 ^ (32 * w.length) = sg.toInt ∧ ∀ n, n < w.length → z / 2 ^ (32 * n) ≠ sg.toInt)

/-- R11: an Integer register of MAXW words holds exactly the integers in [-2^(32*MAXW), 2^(32*MAXW) - 1]. -/
def Obligations.IntegerRegistersHoldExactlyTheirRange : Prop :=
  (∀ (s : State) (r : Reg) (z : Int), s.Inv → HoldsInt s r z → Fits s z) ∧
  (∀ (s : State) (z : Int), Fits s z → ∃ v, IsInt v z ∧ v.ok s.maxw.toNat)

/-- R210: the word-by-word datapath gives `land`, `lor`, `lxor` and `lnot`, whose bits are the operations on the operands' bits
(R24). -/
def Obligations.BitwiseUnitsWorkWordByWord : Prop :=
  (∀ (w w' : List Word) (sg sg' : Word), (sg = 0 ∨ sg = signOnes) → (sg' = 0 ∨ sg' = signOnes) →
    ∀ m, m = max w.length w'.length →
    intVal ((List.range m).map fun i => getBits (.int w sg) i &&& getBits (.int w' sg') i) (sg &&& sg')
        = land (intVal w sg) (intVal w' sg') ∧
    intVal ((List.range m).map fun i => getBits (.int w sg) i ||| getBits (.int w' sg') i) (sg ||| sg')
        = lor (intVal w sg) (intVal w' sg') ∧
    intVal ((List.range m).map fun i => getBits (.int w sg) i ^^^ getBits (.int w' sg') i) (sg ^^^ sg')
        = lxor (intVal w sg) (intVal w' sg') ∧
    intVal (w.map fun u => ~~~u) (~~~sg) = lnot (intVal w sg)) ∧
  (∀ (p q : Int) (k : Nat),
    intBit (land p q) k = (intBit p k && intBit q k) ∧ intBit (lor p q) k = (intBit p k || intBit q k) ∧
    intBit (lxor p q) k = (intBit p k ^^ intBit q k) ∧ intBit (lnot p) k = !intBit p k)

/-- R219: the shifter's whole-word and sub-word datapath gives `z * 2^sh` and `floor(z / 2^sh)`. -/
def Obligations.ShifterWorksWordByWord : Prop :=
  ∀ (w : List Word) (sg : Word) (sh : Nat), (sg = 0 ∨ sg = signOnes) →
    intVal ((List.range (w.length + sh / 32 + 1)).map fun i =>
        if sh % 32 = 0 then getBits (.int w sg) ((i : Int) - (sh / 32 : Nat))
        else getBits (.int w sg) ((i : Int) - (sh / 32 : Nat)) <<< (sh % 32) |||
          getBits (.int w sg) ((i : Int) - (sh / 32 : Nat) - 1) >>> (32 - sh % 32)) sg
      = intVal w sg * 2 ^ sh ∧
    intVal ((List.range w.length).map fun i =>
        if sh % 32 = 0 then getBits (.int w sg) ((i : Int) + (sh / 32 : Nat))
        else getBits (.int w sg) ((i : Int) + (sh / 32 : Nat)) >>> (sh % 32) |||
          getBits (.int w sg) ((i : Int) + (sh / 32 : Nat) + 1) <<< (32 - sh % 32)) sg
      = (intVal w sg).fdiv (2 ^ sh)

/-! ### The commands: what each gives, and which errors it raises in which order -/

/-- R123: NOP changes nothing but that it is over. -/
def Obligations.NopChangesNothing : Prop :=
  decode 0x00000000 = .ok .nop ∧
  ∀ s : State, exec .nop s = .next { s with busy := false, curCmd := 0, aLo := 0, aHi := 0 }

/-- R124, R125: MOV copies a register of the type T names; EMPTY raises UNWRITTEN and the other type TYPE; a register copied to
itself is unchanged (an Integer that is canonical, as the invariant says it is). -/
def Obligations.MovCopiesARegister : Prop :=
  decode 0x04021000 = .ok (.movI 2 1) ∧ decode 0x06021000 = .ok (.movL 2 1) ∧
  ∀ (s : State) (d a : Reg),
    ChecksInt (.movI d a) s a ∧ (∀ z, HoldsInt s a z → GivesInt (.movI d a) s d z) ∧
    ChecksLong (.movL d a) s a ∧ (∀ z, HoldsLong s a z → GivesLong (.movL d a) s d z) ∧
    (∀ w sg, s.reg a = .int w sg → Canonical w sg →
      exec (.movI a a) s = .next { s with busy := false, curCmd := 0, aLo := 0, aHi := 0 }) ∧
    (∀ low high, s.reg a = .long low high →
      exec (.movL a a) s = .next { s with busy := false, curCmd := 0, aLo := 0, aHi := 0 })

/-- R126, R127, R128, R129: LDI loads `s32(A_LO)`, LDP loads `s64(A_HI:A_LO)`; the Long form of LDP writes the two words. None
raises an error (MAXW is at least 2, R11). -/
def Obligations.LoadsGiveTheArgument : Prop :=
  decode 0x08010000 = .ok (.ldiI 1) ∧ decode 0x0A010000 = .ok (.ldiL 1) ∧ decode 0x0C010000 = .ok (.ldpI 1) ∧
  decode 0x0E010000 = .ok (.ldpL 1) ∧
  ∀ (s : State) (d : Reg), 2 ≤ s.maxw.toNat →
    GivesInt (.ldiI d) s d s.aLo.toInt ∧ GivesLong (.ldiL d) s d s.aLo.toInt ∧
    GivesInt (.ldpI d) s d (s.aHi.toInt * 2 ^ 32 + s.aLo.toNat) ∧
    exec (.ldpL d) s = .next { s with
      x := s.x.set d.toNat (.long s.aLo s.aHi) d.isLt, busy := false, curCmd := 0, aLo := 0, aHi := 0 }

/-- R130: WPUSH.I gives `z * 2^32 + u32(A_LO)`, or CAPACITY where that does not fit. -/
def Obligations.WpushAppendsAWord : Prop :=
  decode 0x10010000 = .ok (.wpushI 1) ∧
  ∀ (s : State) (d : Reg), ChecksInt (.wpushI d) s d ∧
    ∀ z, HoldsInt s d z → WritesIntOrCapacity (.wpushI d) s d (z * 2 ^ 32 + s.aLo.toNat)

/-- R121, R131: LDN.I truncates a finite double toward zero, or raises CAPACITY where the result does not fit; NaN and the
infinities give 0. -/
def Obligations.LdnIntegerTruncates : Prop :=
  decode 0x14010000 = .ok (.ldnI 1) ∧
  ∀ (s : State) (d : Reg),
    (f64Value (s.aHi ++ s.aLo) = none → GivesInt (.ldnI d) s d 0) ∧
    (∀ v z, f64Value (s.aHi ++ s.aLo) = some v → IsTrunc v z → WritesIntOrCapacity (.ldnI d) s d z)

/-- R121, R132: LDN.L truncates a double in (-2^63, 2^63) toward zero and saturates outside; NaN gives 0. -/
def Obligations.LdnLongTruncatesAndSaturates : Prop :=
  decode 0x16010000 = .ok (.ldnL 1) ∧
  ∀ (s : State) (d : Reg),
    (f64Exp (s.aHi ++ s.aLo) = 2047 → f64Frac (s.aHi ++ s.aLo) ≠ 0 → GivesLong (.ldnL d) s d 0) ∧
    (f64Exp (s.aHi ++ s.aLo) = 2047 → f64Frac (s.aHi ++ s.aLo) = 0 →
      GivesLong (.ldnL d) s d (if f64Sign (s.aHi ++ s.aLo) = true then -2 ^ 63 else 2 ^ 63 - 1)) ∧
    (∀ v z, f64Value (s.aHi ++ s.aLo) = some v → IsTrunc v z →
      (v ≤ -2 ^ 63 → GivesLong (.ldnL d) s d (-2 ^ 63)) ∧
      (2 ^ 63 ≤ v → GivesLong (.ldnL d) s d (2 ^ 63 - 1)) ∧
      (-2 ^ 63 < v → v < 2 ^ 63 → GivesLong (.ldnL d) s d z))

/-- R133, R134: CVT.I keeps the two low words of an Integer (a register the invariant allows), CVT.L keeps a Long's value. -/
def Obligations.CvtConvertsBetweenTheTypes : Prop :=
  decode 0x18021000 = .ok (.cvtI 2 1) ∧ decode 0x1A021000 = .ok (.cvtL 2 1) ∧
  ∀ (s : State) (d a : Reg),
    ChecksInt (.cvtI d a) s a ∧
    (∀ z, HoldsInt s a z → (s.reg a).ok s.maxw.toNat → GivesLong (.cvtI d a) s d (z.bmod (2 ^ 64))) ∧
    ChecksLong (.cvtL d a) s a ∧
    (∀ z, HoldsLong s a z → 2 ≤ s.maxw.toNat → GivesInt (.cvtL d a) s d z)

/-- R22, R135, R136: RDW returns word `i` of the value's infinite two's-complement reading, `i = s32(A_LO)`, and 0 for a negative
index; RES_HI is 0. -/
def Obligations.RdwReadsOneWord : Prop :=
  decode 0x1C001000 = .ok (.rdwI 1) ∧ decode 0x1E001000 = .ok (.rdwL 1) ∧
  ∀ (s : State) (a : Reg),
    ChecksInt (.rdwI a) s a ∧ ChecksLong (.rdwL a) s a ∧
    (∀ z, HoldsInt s a z →
      (s.aLo.toInt < 0 → GivesResult (.rdwI a) s 0 0) ∧
      (0 ≤ s.aLo.toInt → GivesResult (.rdwI a) s (BitVec.ofInt 32 (z / 2 ^ (32 * s.aLo.toNat))) 0)) ∧
    (∀ z, HoldsLong s a z →
      (s.aLo.toInt < 0 → GivesResult (.rdwL a) s 0 0) ∧
      (0 ≤ s.aLo.toInt → GivesResult (.rdwL a) s (BitVec.ofInt 32 (z / 2 ^ (32 * s.aLo.toNat))) 0))

/-- R137: LEN.I returns the stored length and the sign word of the canonical form. -/
def Obligations.LenReadsLengthAndSign : Prop :=
  decode 0x20001000 = .ok (.lenI 1) ∧
  ∀ (s : State) (a : Reg), ChecksInt (.lenI a) s a ∧
    ∀ z w sg, HoldsInt s a z → Canonical w sg → intVal w sg = z →
      GivesResult (.lenI a) s (BitVec.ofNat 32 w.length) sg

/-- R122, R138, R139: TONAT returns the double nearest to the value, ties to even, an infinity from 2^1024 - 2^970 on, +0 for 0;
its low word in RES_LO and its high word in RES_HI. -/
def Obligations.TonatGivesTheNearestDouble : Prop :=
  decode 0x24001000 = .ok (.tonatI 1) ∧ decode 0x26001000 = .ok (.tonatL 1) ∧
  ∀ (s : State) (a : Reg),
    ChecksInt (.tonatI a) s a ∧ ChecksLong (.tonatL a) s a ∧
    (∀ z, HoldsInt s a z → ∃ lo hi : Word, IsNearestDouble z (hi ++ lo) ∧ GivesResult (.tonatI a) s lo hi) ∧
    (∀ z, HoldsLong s a z → ∃ lo hi : Word, IsNearestDouble z (hi ++ lo) ∧ GivesResult (.tonatL a) s lo hi)

/-- R161, R163, R165, R167: ADD.I, SUB.I, NEG.I and MUL.I are exact, or raise CAPACITY where the result does not fit. -/
def Obligations.IntegerArithmeticIsExact : Prop :=
  decode 0x40031200 = .ok (.addI 3 1 2) ∧ decode 0x44031200 = .ok (.subI 3 1 2) ∧ decode 0x48021000 = .ok (.negI 2 1) ∧
  decode 0x4C031200 = .ok (.mulI 3 1 2) ∧
  ∀ (s : State) (d a b : Reg),
    ChecksInts (.addI d a b) s a b ∧ ChecksInts (.subI d a b) s a b ∧ ChecksInts (.mulI d a b) s a b ∧
    ChecksInt (.negI d a) s a ∧
    (∀ p q, HoldsInt s a p → HoldsInt s b q →
      WritesIntOrCapacity (.addI d a b) s d (p + q) ∧ WritesIntOrCapacity (.subI d a b) s d (p - q) ∧
      WritesIntOrCapacity (.mulI d a b) s d (p * q)) ∧
    (∀ z, HoldsInt s a z → WritesIntOrCapacity (.negI d a) s d (-z))

/-- R162, R164, R166, R168: ADD.L, SUB.L, NEG.L and MUL.L are the results modulo 2^64 in [-2^63, 2^63). -/
def Obligations.LongArithmeticWraps : Prop :=
  decode 0x42031200 = .ok (.addL 3 1 2) ∧ decode 0x46031200 = .ok (.subL 3 1 2) ∧ decode 0x4A021000 = .ok (.negL 2 1) ∧
  decode 0x4E031200 = .ok (.mulL 3 1 2) ∧
  ∀ (s : State) (d a b : Reg),
    ChecksLongs (.addL d a b) s a b ∧ ChecksLongs (.subL d a b) s a b ∧ ChecksLongs (.mulL d a b) s a b ∧
    ChecksLong (.negL d a) s a ∧
    (∀ p q, HoldsLong s a p → HoldsLong s b q →
      GivesLong (.addL d a b) s d ((p + q).bmod (2 ^ 64)) ∧ GivesLong (.subL d a b) s d ((p - q).bmod (2 ^ 64)) ∧
      GivesLong (.mulL d a b) s d ((p * q).bmod (2 ^ 64))) ∧
    (∀ z, HoldsLong s a z → GivesLong (.negL d a) s d ((-z).bmod (2 ^ 64)))

/-- R181, R183, R185, R187: the Integer divisions, DIVZERO (code 4) after the operand checks and before CAPACITY; the remainders
never raise CAPACITY for operands that fit. -/
def Obligations.IntegerDivisionIsExact : Prop :=
  decode 0x50031200 = .ok (.quotI 3 1 2) ∧ decode 0x54031200 = .ok (.remI 3 1 2) ∧
  decode 0x58031200 = .ok (.divI 3 1 2) ∧ decode 0x5C031200 = .ok (.modI 3 1 2) ∧
  ∀ (s : State) (d a b : Reg),
    (∀ i ∈ [Instr.quotI d a b, .remI d a b, .divI d a b, .modI d a b], ChecksInts i s a b ∧
      ∀ p, HoldsInt s a p → HoldsInt s b 0 → Raises i s 4) ∧
    ∀ p q, HoldsInt s a p → HoldsInt s b q → q ≠ 0 →
      WritesIntOrCapacity (.quotI d a b) s d (p.tdiv q) ∧ WritesIntOrCapacity (.divI d a b) s d ⌊(p : ℚ) / q⌋ ∧
      (Fits s p → GivesInt (.remI d a b) s d (p.tmod q)) ∧
      (Fits s q → GivesInt (.modI d a b) s d (p - q * ⌊(p : ℚ) / q⌋))

/-- R182, R184, R186, R188: the Long divisions; the quotients wrap modulo 2^64, the remainders never need to. -/
def Obligations.LongDivisionWraps : Prop :=
  decode 0x52031200 = .ok (.quotL 3 1 2) ∧ decode 0x56031200 = .ok (.remL 3 1 2) ∧
  decode 0x5A031200 = .ok (.divL 3 1 2) ∧ decode 0x5E031200 = .ok (.modL 3 1 2) ∧
  ∀ (s : State) (d a b : Reg),
    (∀ i ∈ [Instr.quotL d a b, .remL d a b, .divL d a b, .modL d a b], ChecksLongs i s a b ∧
      ∀ p, HoldsLong s a p → HoldsLong s b 0 → Raises i s 4) ∧
    ∀ p q, HoldsLong s a p → HoldsLong s b q → q ≠ 0 →
      GivesLong (.quotL d a b) s d ((p.tdiv q).bmod (2 ^ 64)) ∧ GivesLong (.remL d a b) s d (p.tmod q) ∧
      GivesLong (.divL d a b) s d (⌊(p : ℚ) / q⌋.bmod (2 ^ 64)) ∧
      GivesLong (.modL d a b) s d (p - q * ⌊(p : ℚ) / q⌋)

/-- R201, R202, R203, R204: CMP gives the order of its operands, SGN the order with 0, in RES_LO and in STATUS.CMP; CMP.I raises
no CAPACITY whatever the lengths. -/
def Obligations.CompareGivesTheOrder : Prop :=
  decode 0x60001200 = .ok (.cmpI 1 2) ∧ decode 0x62001200 = .ok (.cmpL 1 2) ∧ decode 0x64001000 = .ok (.sgnI 1) ∧
  decode 0x66001000 = .ok (.sgnL 1) ∧
  ∀ (s : State) (a b : Reg),
    ChecksInts (.cmpI a b) s a b ∧ ChecksLongs (.cmpL a b) s a b ∧ ChecksInt (.sgnI a) s a ∧ ChecksLong (.sgnL a) s a ∧
    (∀ p q, HoldsInt s a p → HoldsInt s b q → Compares (.cmpI a b) s p q) ∧
    (∀ p q, HoldsLong s a p → HoldsLong s b q → Compares (.cmpL a b) s p q) ∧
    (∀ z, HoldsInt s a z → Compares (.sgnI a) s z 0) ∧
    (∀ z, HoldsLong s a z → Compares (.sgnL a) s z 0)

/-- R24, R211, R213, R215, R217: AND.I, OR.I, XOR.I and NOT.I give the integer whose every bit is the operation on the operands'
bits; with operands that fit they never raise CAPACITY. -/
def Obligations.IntegerBitwiseWorksBitByBit : Prop :=
  decode 0x68031200 = .ok (.andI 3 1 2) ∧ decode 0x6C031200 = .ok (.orI 3 1 2) ∧ decode 0x70031200 = .ok (.xorI 3 1 2) ∧
  decode 0x74021000 = .ok (.notI 2 1) ∧
  ∀ (s : State) (d a b : Reg),
    ChecksInts (.andI d a b) s a b ∧ ChecksInts (.orI d a b) s a b ∧ ChecksInts (.xorI d a b) s a b ∧
    ChecksInt (.notI d a) s a ∧
    (∀ p q z, HoldsInt s a p → HoldsInt s b q → Fits s p → Fits s q →
      ((∀ k, intBit z k = (intBit p k && intBit q k)) → GivesInt (.andI d a b) s d z) ∧
      ((∀ k, intBit z k = (intBit p k || intBit q k)) → GivesInt (.orI d a b) s d z) ∧
      ((∀ k, intBit z k = (intBit p k ^^ intBit q k)) → GivesInt (.xorI d a b) s d z)) ∧
    (∀ z, HoldsInt s a z → Fits s z → GivesInt (.notI d a) s d (-z - 1))

/-- R24, R212, R214, R216, R218: the same on two Longs, whose results are always in range. -/
def Obligations.LongBitwiseWorksBitByBit : Prop :=
  decode 0x6A031200 = .ok (.andL 3 1 2) ∧ decode 0x6E031200 = .ok (.orL 3 1 2) ∧ decode 0x72031200 = .ok (.xorL 3 1 2) ∧
  decode 0x76021000 = .ok (.notL 2 1) ∧
  ∀ (s : State) (d a b : Reg),
    ChecksLongs (.andL d a b) s a b ∧ ChecksLongs (.orL d a b) s a b ∧ ChecksLongs (.xorL d a b) s a b ∧
    ChecksLong (.notL d a) s a ∧
    (∀ p q z, HoldsLong s a p → HoldsLong s b q →
      ((∀ k, intBit z k = (intBit p k && intBit q k)) → GivesLong (.andL d a b) s d z) ∧
      ((∀ k, intBit z k = (intBit p k || intBit q k)) → GivesLong (.orL d a b) s d z) ∧
      ((∀ k, intBit z k = (intBit p k ^^ intBit q k)) → GivesLong (.xorL d a b) s d z)) ∧
    (∀ z, HoldsLong s a z → GivesLong (.notL d a) s d (-z - 1))

/-- R220, R222: SHL.I multiplies by `2^sh` exactly or raises CAPACITY; SHR.I divides by `2^sh`, rounding down, and never raises
CAPACITY for an operand that fits. -/
def Obligations.IntegerShiftsScaleByAPowerOfTwo : Prop :=
  decode 0x78021028 = .ok (.shlI 2 1 40) ∧ decode 0x7C021028 = .ok (.shrI 2 1 40) ∧
  ∀ (s : State) (d a : Reg) (sh : Nat),
    ChecksInt (.shlI d a sh) s a ∧ ChecksInt (.shrI d a sh) s a ∧
    ∀ z, HoldsInt s a z →
      WritesIntOrCapacity (.shlI d a sh) s d (z * 2 ^ sh) ∧
      (Fits s z → GivesInt (.shrI d a sh) s d ⌊(z : ℚ) / 2 ^ sh⌋)

/-- R221, R223: the Long shifts; SHL.L wraps modulo 2^64 (so it gives 0 from 64 on), SHR.L rounds down. -/
def Obligations.LongShiftsScaleByAPowerOfTwo : Prop :=
  decode 0x7A021028 = .ok (.shlL 2 1 40) ∧ decode 0x7E021028 = .ok (.shrL 2 1 40) ∧
  ∀ (s : State) (d a : Reg) (sh : Nat),
    ChecksLong (.shlL d a sh) s a ∧ ChecksLong (.shrL d a sh) s a ∧
    ∀ z, HoldsLong s a z →
      GivesLong (.shlL d a sh) s d ((z * 2 ^ sh).bmod (2 ^ 64)) ∧
      (64 ≤ sh → GivesLong (.shlL d a sh) s d 0) ∧
      GivesLong (.shrL d a sh) s d ⌊(z : ℚ) / 2 ^ sh⌋

/-- R234, R235, R236: SCLR empties the text; SPUT appends `A_LO[7:0]`, or raises STROVF (code 11) on a full buffer; SGET
returns the code at the unsigned index `A_LO`, or raises STRIDX (code 10) at or beyond STRLEN. -/
def Obligations.StringCommandsWorkOnTheText : Prop :=
  decode 0x80000000 = .ok .sclr ∧ decode 0x84000000 = .ok .sput ∧ decode 0x88000000 = .ok .sget ∧
  ∀ s : State,
    exec .sclr s = .next { s with strlen := 0, busy := false, curCmd := 0, aLo := 0, aHi := 0 } ∧
    (s.strlen = s.strcap.toNat → Raises .sput s 11) ∧
    (s.strlen ≠ s.strcap.toNat → Memory.wf s.strbuf → ∃ m,
      exec .sput s = .next { s with
        strbuf := m, strlen := s.strlen + 1, busy := false, curCmd := 0, aLo := 0, aHi := 0 } ∧
      Memory.read m s.strlen = s.aLo.setWidth 8 ∧ ∀ k, k ≠ s.strlen → Memory.read m k = Memory.read s.strbuf k) ∧
    (s.strlen ≤ s.aLo.toNat → Raises .sget s 10) ∧
    (s.aLo.toNat < s.strlen → GivesResult .sget s ((Memory.read s.strbuf s.aLo.toNat).setWidth 32) 0)

/-- R231, R232, R237: PARSE.I gives the number the text denotes in the radix, or the first that applies of RADIX (5), EMPTY (6),
SIGN (7), DIGIT (8) and CAPACITY (9). -/
def Obligations.ParseReadsTheNumeral : Prop :=
  decode 0x8C01000A = .ok (.parseI 1 10) ∧ decode 0x8C010010 = .ok (.parseI 1 16) ∧
  ∀ (s : State) (d : Reg) (r : Nat) (neg : Bool) (body : List Byte),
    (neg = true ∧ s.text = 0x2D :: body ∨ neg = false ∧ s.text = body ∧ body.head? ≠ some 0x2D) →
    ((r < 2 ∨ 36 < r) → Raises (.parseI d r) s 5) ∧
    (2 ≤ r → r ≤ 36 →
      (body = [] → Raises (.parseI d r) s 6) ∧
      (0x2D ∈ body → Raises (.parseI d r) s 7) ∧
      (0x2D ∉ body → (∃ c ∈ body, ∀ k, digitOf c = some k → r ≤ k) → Raises (.parseI d r) s 8) ∧
      (∀ m, body ≠ [] → IsNumeral r body m →
        WritesIntOrCapacity (.parseI d r) s d (if neg = true then -(m : Int) else m)))

/-- R233, R238, R239: TOSTR replaces the text by the decimal text of the value, returns its length, and the text fits the buffer
in every state that meets the invariant. -/
def Obligations.TostrWritesTheDecimalText : Prop :=
  decode 0x90001000 = .ok (.tostrI 1) ∧ decode 0x92001000 = .ok (.tostrL 1) ∧
  ∀ (s : State) (a : Reg),
    ChecksInt (.tostrI a) s a ∧ ChecksLong (.tostrL a) s a ∧
    ∀ i z, (i = .tostrI a ∧ HoldsInt s a z ∨ i = .tostrL a ∧ HoldsLong s a z) → Memory.wf s.strbuf → ∃ t m,
      IsDecimalText t z ∧ (s.Inv → t.length ≤ s.strcap.toNat) ∧
      exec i s = .next { s with
        strbuf := m, strlen := t.length, resLo := BitVec.ofNat 32 t.length, resHi := 0,
        busy := false, curCmd := 0, aLo := 0, aHi := 0 } ∧
      (∀ k, (h : k < t.length) → Memory.read m k = t[k]) ∧
      (∀ k, t.length ≤ k → Memory.read m k = Memory.read s.strbuf k)

/-- R121, R260, R262: DECD gives the mantissa, exponent and sign of a binary64, from which a finite value is rebuilt exactly;
infinity and NaN, which `f64` tells apart, give `e = 972`. -/
def Obligations.DecdSplitsADouble : Prop :=
  decode 0xA0010000 = .ok (.decd 1) ∧
  ∀ (s : State) (d : Reg), 2 ≤ s.maxw.toNat → ∀ b : BitVec 64, b = s.aHi ++ s.aLo → ∃ (v : Value) (m : Nat) (e : Int),
    IsInt v m ∧
    (f64Exp b = 0 → m = f64Frac b ∧ e = -1074) ∧ (f64Exp b ≠ 0 → m = 2 ^ 52 + f64Frac b ∧ e = f64Exp b - 1075) ∧
    exec (.decd d) s = .next { s with
      x := s.x.set d.toNat v d.isLt, resLo := BitVec.ofInt 32 e, resHi := if f64Sign b = true then 0xFFFFFFFF else 1,
      busy := false, curCmd := 0, aLo := 0, aHi := 0 } ∧
    (∀ u, f64Value b = some u → u = (if f64Sign b = true then -1 else 1) * (m : ℚ) * (2 : ℚ) ^ e) ∧
    (f64Exp b = 2047 → f64Frac b ≠ 0 → f64 b = .nan ∧ m = 2 ^ 52 + f64Frac b ∧ e = 972) ∧
    (f64Exp b = 2047 → f64Frac b = 0 → f64 b = .inf (f64Sign b) ∧ m = 2 ^ 52 ∧ e = 972) ∧
    (f64Exp b ≠ 2047 → f64 b = .finite (f64Sign b) m e)

/-- R260, R261, R263: DECF the same for a binary32, which is `A_LO` (`A_HI` is not read); infinity and NaN, which `f32` tells
apart, give `e = 105`. -/
def Obligations.DecfSplitsAFloat : Prop :=
  decode 0xA4010000 = .ok (.decf 1) ∧
  ∀ (s : State) (d : Reg), 2 ≤ s.maxw.toNat → ∃ (v : Value) (m : Nat) (e : Int),
    IsInt v m ∧
    (f32Exp s.aLo = 0 → m = f32Frac s.aLo ∧ e = -149) ∧
    (f32Exp s.aLo ≠ 0 → m = 2 ^ 23 + f32Frac s.aLo ∧ e = f32Exp s.aLo - 150) ∧
    exec (.decf d) s = .next { s with
      x := s.x.set d.toNat v d.isLt, resLo := BitVec.ofInt 32 e,
      resHi := if f32Sign s.aLo = true then 0xFFFFFFFF else 1, busy := false, curCmd := 0, aLo := 0, aHi := 0 } ∧
    (∀ u, f32Value s.aLo = some u → u = (if f32Sign s.aLo = true then -1 else 1) * (m : ℚ) * (2 : ℚ) ^ e) ∧
    (f32Exp s.aLo = 255 → f32Frac s.aLo ≠ 0 → f32 s.aLo = .nan ∧ m = 2 ^ 23 + f32Frac s.aLo ∧ e = 105) ∧
    (f32Exp s.aLo = 255 → f32Frac s.aLo = 0 → f32 s.aLo = .inf (f32Sign s.aLo) ∧ m = 2 ^ 23 ∧ e = 105) ∧
    (f32Exp s.aLo ≠ 255 → f32 s.aLo = .finite (f32Sign s.aLo) m e)

/-! ### Properties across commands (95_test_vectors.md, P-a to P-f) -/

/-- P-a and P-b of 95_test_vectors.md: what QUOT and REM leave, and what DIV and MOD leave, rebuild the dividend, with the
remainder smaller than the divisor and of the dividend's sign (REM) or the divisor's (MOD). -/
def Obligations.DivisionIdentities : Prop :=
  ∀ (s t u : State) (d a b : Reg) (p q k r : Int), HoldsInt s a p → HoldsInt s b q → q ≠ 0 →
    (exec (.quotI d a b) s = .next t → t.err = false → exec (.remI d a b) s = .next u → u.err = false →
      HoldsInt t d k → HoldsInt u d r → p = k * q + r ∧ |r| < |q| ∧ 0 ≤ r * p) ∧
    (exec (.divI d a b) s = .next t → t.err = false → exec (.modI d a b) s = .next u → u.err = false →
      HoldsInt t d k → HoldsInt u d r → p = k * q + r ∧ |r| < |q| ∧ 0 ≤ r * q)

/-- P-c of 95_test_vectors.md: PARSE.I in radix 10 after TOSTR.I gives the Integer back. -/
def Obligations.ParseAfterTostrGivesTheValueBack : Prop :=
  ∀ (s t : State) (d a : Reg) (z : Int), s.Inv → HoldsInt s a z → exec (.tostrI a) s = .next t →
    GivesInt (.parseI d 10) t d z

/-- P-f of 95_test_vectors.md: SHR.I after SHL.I by one count gives the Integer back, where SHL.I raised no CAPACITY. -/
def Obligations.ShiftRightUndoesShiftLeft : Prop :=
  ∀ (s t : State) (d e a : Reg) (sh : Nat) (z : Int), HoldsInt s a z → Fits s (z * 2 ^ sh) →
    exec (.shlI d a sh) s = .next t → GivesInt (.shrI e d sh) t e z

/-- R134: CVT.I after CVT.L gives the Long back, word for word. -/
def Obligations.CvtThereAndBackKeepsALong : Prop :=
  ∀ (s t : State) (d e a : Reg) (low high : Word), 2 ≤ s.maxw.toNat → s.reg a = .long low high →
    exec (.cvtL d a) s = .next t → exec (.cvtI e d) t = .next { t with
      x := t.x.set e.toNat (.long low high) e.isLt, busy := false, curCmd := 0, aLo := 0, aHi := 0 }
end

