-- ==== Sys2Proof/Laws/Config.lean ====
section
/-! SUPPORT. The parameters' range in the spec's own words. -/

namespace Sys2Proof.Laws

/-- The STRCAP bound of R12 with its logarithm: `floor(32*MAXW * log10(2))` is the decimal logarithm of `2^(32*MAXW)`. -/
theorem paramsOk_iff_log (maxw strcap : Nat) :
    Config.paramsOk maxw strcap ↔
      2 ≤ maxw ∧ 20 ≤ strcap ∧ Nat.log 10 (2 ^ (32 * maxw)) + 2 ≤ strcap := by
  unfold Config.paramsOk
  refine and_congr_right fun _ => and_congr_right fun hs => ?_
  rw [← Nat.log_lt_iff_lt_pow (by norm_num) (by positivity)]
  omega

end Sys2Proof.Laws
end

