-- ==== Sys2Proof/Laws/Numbers.lean ====
section
/-! SUPPORT. Laws of the value functions: what mkInt and mkLong denote, and when an Integer fits a number of words. -/

namespace Sys2Proof.Machine

theorem wordsVal_lt (w : List Word) : wordsVal w < 2 ^ (32 * w.length) := by
  induction w with
  | nil => simp [wordsVal]
  | cons a t ih =>
    have ha := a.isLt
    simp only [wordsVal, List.length_cons, Nat.mul_succ, pow_add] at *
    nlinarith

theorem toNat_word (z : Int) : ((word z).toNat : Int) = z % ((2 ^ 32 : Nat) : Int) := by
  simp only [word, BitVec.toNat_ofInt]
  rw [Int.toNat_of_nonneg (Int.emod_nonneg _ (by norm_num))]

theorem ediv_pow_succ (z : Int) (B i : Nat) : z / ((B ^ (i + 1) : Nat) : Int) = z / (B : Int) / ((B ^ i : Nat) : Int) := by
  rw [Int.ediv_ediv_of_nonneg (by positivity), pow_succ']
  push_cast
  rfl

theorem emod_mul_eq (z : Int) (B C : Nat) (hB : 0 < B) (hC : 0 < C) :
    z % ((B * C : Nat) : Int) = z % (B : Int) + B * (z / (B : Int) % (C : Int)) := by
  have hb : (0 : Int) < B := by exact_mod_cast hB
  have hc : (0 : Int) < C := by exact_mod_cast hC
  have a := Int.mul_ediv_add_emod z B
  have b := Int.mul_ediv_add_emod (z / (B : Int)) C
  have c1 := Int.emod_nonneg z hb.ne'
  have c2 := Int.emod_lt_of_pos z hb
  have d1 := Int.emod_nonneg (z / (B : Int)) hc.ne'
  have d2 := Int.emod_lt_of_pos (z / (B : Int)) hc
  generalize z / (B : Int) % (C : Int) = r2 at *
  generalize z % (B : Int) = r1 at *
  have e : z = (r1 + B * r2) + ((B * C : Nat) : Int) * (z / (B : Int) / (C : Int)) := by
    push_cast
    calc z = (B : Int) * (z / B) + r1 := a.symm
      _ = (B : Int) * ((C : Int) * (z / B / C) + r2) + r1 := by rw [b]
      _ = _ := by ring
  conv_lhs => rw [e]
  rw [Int.add_mul_emod_self_left]
  apply Int.emod_eq_of_lt
  · positivity
  · push_cast; nlinarith

theorem wordAt_succ (z : Int) (i : Nat) : wordAt z (i + 1) = wordAt (z / ((2 ^ 32 : Nat) : Int)) i := by
  unfold wordAt
  rw [pow_mul, pow_mul, ediv_pow_succ]

theorem wordsVal_wordAt (n : Nat) (z : Int) :
    (wordsVal ((List.range n).map (wordAt z)) : Int) = z % ((2 ^ (32 * n) : Nat) : Int) := by
  induction n generalizing z with
  | zero => simp [wordsVal]
  | succ n ih =>
    have h0 : wordAt z 0 = word z := by simp [wordAt]
    have hs : (List.range (n + 1)).map (wordAt z)
        = word z :: (List.range n).map (wordAt (z / ((2 ^ 32 : Nat) : Int))) := by
      rw [List.range_succ_eq_map, List.map_cons, List.map_map, h0]
      congr 1
      exact List.map_congr_left (fun i _ => wordAt_succ z i)
    rw [hs]
    simp only [wordsVal, Nat.cast_add, Nat.cast_mul, ih, toNat_word]
    rw [pow_mul, pow_mul, pow_succ' (2 ^ 32) n, emod_mul_eq _ _ _ (by norm_num) (by positivity)]

/-- An integer's length is at most `n` exactly when it lies in the range of `n` words (R11, R20). -/
theorem intLen_le_iff (z : Int) (n : Nat) :
    intLen z ≤ n ↔ -((2 ^ (32 * n) : Nat) : Int) ≤ z ∧ z < ((2 ^ (32 * n) : Nat) : Int) := by
  have hpos : 0 < 2 ^ (32 * n) := by positivity
  have h1 : intLen z ≤ n ↔ lenMag z < 2 ^ (32 * n) := by
    unfold intLen
    split
    · rename_i h; simp [h, hpos]
    · rename_i h
      rw [← Nat.log2_lt h]
      omega
  rw [h1]
  unfold lenMag
  generalize 2 ^ (32 * n) = K at *
  split <;> omega

theorem intVal_mkInt (z : Int) : intVal ((List.range (intLen z)).map (wordAt z)) (signWord z) = z := by
  have hr := (intLen_le_iff z (intLen z)).1 le_rfl
  have hpos : 0 < 2 ^ (32 * intLen z) := by positivity
  unfold intVal
  rw [wordsVal_wordAt]
  simp only [List.length_map, List.length_range]
  generalize 2 ^ (32 * intLen z) = K at *
  unfold signWord
  by_cases hz : z < 0
  · simp only [hz, if_true]
    have : z % (K : Int) = z + K := by
      rw [← Int.add_mul_emod_self_left z K 1]
      rw [Int.emod_eq_of_lt] <;> omega
    omega
  · have h0 : ¬ ((0 : Word) = signOnes) := by decide
    simp only [hz, if_false, h0]
    rw [Int.emod_eq_of_lt] <;> omega

/-- The top stored word of a nonempty canonical form is not the sign word (R19). -/
theorem wordAt_top_ne (z : Int) (n : Nat) (hn : intLen z = n + 1) : wordAt z n ≠ signWord z := by
  have hlo : ¬ intLen z ≤ n := by omega
  have hhi : intLen z ≤ n + 1 := by omega
  rw [intLen_le_iff] at hlo hhi
  have hpos : 0 < 2 ^ (32 * n) := by positivity
  have e : (2 ^ (32 * (n + 1)) : Nat) = 2 ^ 32 * 2 ^ (32 * n) := by rw [← pow_add]; congr 1; ring
  rw [e] at hhi
  intro h
  have h2 : ((wordAt z n).toNat : Int) = ((signWord z).toNat : Int) := by rw [h]
  unfold wordAt at h2
  rw [toNat_word] at h2
  generalize 2 ^ (32 * n) = K at *
  have hK : (0 : Int) < K := by exact_mod_cast hpos
  have q1 := Int.mul_ediv_add_emod z K
  have q2 := Int.emod_nonneg z hK.ne'
  have q3 := Int.emod_lt_of_pos z hK
  generalize z / (K : Int) = q at *
  generalize z % (K : Int) = r at *
  unfold signWord at h2
  push_cast at hhi
  by_cases hz : z < 0
  · simp only [hz, if_true] at h2
    have hs : ((signOnes.toNat : Nat) : Int) = 2 ^ 32 - 1 := by decide
    rw [hs] at h2
    have hq : q < -1 := by
      by_contra hc
      have : -1 ≤ q := by omega
      apply hlo
      constructor
      · nlinarith
      · omega
    have hq2 : -(2 ^ 32) ≤ q := by
      by_contra hc
      have : q + 1 ≤ -(2 ^ 32) := by omega
      nlinarith
    norm_num at h2 hq2
    omega
  · simp only [hz, if_false] at h2
    have hs : (((0 : Word).toNat : Nat) : Int) = 0 := by decide
    rw [hs] at h2
    have hq : 1 ≤ q := by
      by_contra hc
      have : q ≤ 0 := by omega
      apply hlo
      constructor
      · omega
      · nlinarith
    have hq2 : q < 2 ^ 32 := by
      by_contra hc
      have : 2 ^ 32 ≤ q := by omega
      nlinarith
    norm_num at h2 hq2
    omega

theorem signWord_cases (z : Int) : signWord z = 0 ∨ signWord z = signOnes := by
  unfold signWord; split <;> simp

theorem getLast_mkInt_ne (z : Int) : ((List.range (intLen z)).map (wordAt z)).getLast? ≠ some (signWord z) := by
  cases hn : intLen z with
  | zero => simp
  | succ n =>
    rw [List.range_succ, List.map_append]
    simp only [List.map_cons, List.map_nil, List.getLast?_append, List.getLast?_singleton, Option.some_or, ne_eq,
      Option.some.injEq]
    exact wordAt_top_ne z n hn

/-- A Long written as two words has the value wrapped modulo 2^64 (R21). -/
theorem longVal_mkLong (z : Int) : longVal (word z) (word (z / ((2 ^ 32 : Nat) : Int))) = wrap64 z := by
  have h1 := toNat_word z
  have h2 := toNat_word (z / ((2 ^ 32 : Nat) : Int))
  unfold longVal wrap64
  rw [BitVec.toInt_eq_toNat_cond]
  norm_num at *
  split <;> omega

theorem wrap64_of_range (z : Int) (h1 : longMin ≤ z) (h2 : z ≤ longMax) : wrap64 z = z := by
  unfold wrap64 longMin longMax at *
  norm_num at *
  omega

theorem longVal_range (low high : Word) : longMin ≤ longVal low high ∧ longVal low high ≤ longMax := by
  have a := low.isLt
  have b := high.toInt_lt
  have c := high.le_toInt
  unfold longVal longMin longMax
  norm_num at *
  constructor <;> omega

/-- Two Longs of one value are the same two words (R33). -/
theorem longVal_inj (l h l' h' : Word) (e : longVal l h = longVal l' h') : l = l' ∧ h = h' := by
  have a := l.isLt
  have a' := l'.isLt
  unfold longVal at e
  norm_num at *
  have : h.toInt = h'.toInt ∧ l.toNat = l'.toNat := by omega
  exact ⟨BitVec.eq_of_toNat_eq this.2, BitVec.toInt_inj.1 this.1⟩

end Sys2Proof.Machine
end

