-- ==== Sys2Proof/Laws/State.lean ====
section
/-! SUPPORT. One lemma per field per update of the state, so that no later proof unfolds a record update. -/

namespace Sys2Proof.Machine

@[simp] theorem setReg_x (s : State) (r : Reg) (v : Value) : (s.setReg r v).x = s.x.set r.toNat v r.isLt := rfl
@[simp] theorem setReg_strbuf (s : State) (r : Reg) (v : Value) : (s.setReg r v).strbuf = s.strbuf := rfl
@[simp] theorem setReg_strlen (s : State) (r : Reg) (v : Value) : (s.setReg r v).strlen = s.strlen := rfl
@[simp] theorem setReg_argLo (s : State) (r : Reg) (v : Value) : (s.setReg r v).argLo = s.argLo := rfl
@[simp] theorem setReg_argHi (s : State) (r : Reg) (v : Value) : (s.setReg r v).argHi = s.argHi := rfl
@[simp] theorem setReg_resLo (s : State) (r : Reg) (v : Value) : (s.setReg r v).resLo = s.resLo := rfl
@[simp] theorem setReg_resHi (s : State) (r : Reg) (v : Value) : (s.setReg r v).resHi = s.resHi := rfl
@[simp] theorem setReg_busy (s : State) (r : Reg) (v : Value) : (s.setReg r v).busy = s.busy := rfl
@[simp] theorem setReg_err (s : State) (r : Reg) (v : Value) : (s.setReg r v).err = s.err := rfl
@[simp] theorem setReg_lost (s : State) (r : Reg) (v : Value) : (s.setReg r v).lost = s.lost := rfl
@[simp] theorem setReg_errcode (s : State) (r : Reg) (v : Value) : (s.setReg r v).errcode = s.errcode := rfl
@[simp] theorem setReg_cmp (s : State) (r : Reg) (v : Value) : (s.setReg r v).cmp = s.cmp := rfl
@[simp] theorem setReg_errcmd (s : State) (r : Reg) (v : Value) : (s.setReg r v).errcmd = s.errcmd := rfl
@[simp] theorem setReg_curCmd (s : State) (r : Reg) (v : Value) : (s.setReg r v).curCmd = s.curCmd := rfl
@[simp] theorem setReg_aLo (s : State) (r : Reg) (v : Value) : (s.setReg r v).aLo = s.aLo := rfl
@[simp] theorem setReg_aHi (s : State) (r : Reg) (v : Value) : (s.setReg r v).aHi = s.aHi := rfl
@[simp] theorem setReg_maxw (s : State) (r : Reg) (v : Value) : (s.setReg r v).maxw = s.maxw := rfl
@[simp] theorem setReg_strcap (s : State) (r : Reg) (v : Value) : (s.setReg r v).strcap = s.strcap := rfl
@[simp] theorem setReg_coreBase (s : State) (r : Reg) (v : Value) : (s.setReg r v).coreBase = s.coreBase := rfl
@[simp] theorem setReg_tape (s : State) (r : Reg) (v : Value) : (s.setReg r v).tape = s.tape := rfl
@[simp] theorem setReg_reads (s : State) (r : Reg) (v : Value) : (s.setReg r v).reads = s.reads := rfl

@[simp] theorem setRes_x (s : State) (lo hi : Word) : (s.setRes lo hi).x = s.x := rfl
@[simp] theorem setRes_strbuf (s : State) (lo hi : Word) : (s.setRes lo hi).strbuf = s.strbuf := rfl
@[simp] theorem setRes_strlen (s : State) (lo hi : Word) : (s.setRes lo hi).strlen = s.strlen := rfl
@[simp] theorem setRes_argLo (s : State) (lo hi : Word) : (s.setRes lo hi).argLo = s.argLo := rfl
@[simp] theorem setRes_argHi (s : State) (lo hi : Word) : (s.setRes lo hi).argHi = s.argHi := rfl
@[simp] theorem setRes_resLo (s : State) (lo hi : Word) : (s.setRes lo hi).resLo = lo := rfl
@[simp] theorem setRes_resHi (s : State) (lo hi : Word) : (s.setRes lo hi).resHi = hi := rfl
@[simp] theorem setRes_busy (s : State) (lo hi : Word) : (s.setRes lo hi).busy = s.busy := rfl
@[simp] theorem setRes_err (s : State) (lo hi : Word) : (s.setRes lo hi).err = s.err := rfl
@[simp] theorem setRes_lost (s : State) (lo hi : Word) : (s.setRes lo hi).lost = s.lost := rfl
@[simp] theorem setRes_errcode (s : State) (lo hi : Word) : (s.setRes lo hi).errcode = s.errcode := rfl
@[simp] theorem setRes_cmp (s : State) (lo hi : Word) : (s.setRes lo hi).cmp = s.cmp := rfl
@[simp] theorem setRes_errcmd (s : State) (lo hi : Word) : (s.setRes lo hi).errcmd = s.errcmd := rfl
@[simp] theorem setRes_curCmd (s : State) (lo hi : Word) : (s.setRes lo hi).curCmd = s.curCmd := rfl
@[simp] theorem setRes_aLo (s : State) (lo hi : Word) : (s.setRes lo hi).aLo = s.aLo := rfl
@[simp] theorem setRes_aHi (s : State) (lo hi : Word) : (s.setRes lo hi).aHi = s.aHi := rfl
@[simp] theorem setRes_maxw (s : State) (lo hi : Word) : (s.setRes lo hi).maxw = s.maxw := rfl
@[simp] theorem setRes_strcap (s : State) (lo hi : Word) : (s.setRes lo hi).strcap = s.strcap := rfl
@[simp] theorem setRes_coreBase (s : State) (lo hi : Word) : (s.setRes lo hi).coreBase = s.coreBase := rfl
@[simp] theorem setRes_tape (s : State) (lo hi : Word) : (s.setRes lo hi).tape = s.tape := rfl
@[simp] theorem setRes_reads (s : State) (lo hi : Word) : (s.setRes lo hi).reads = s.reads := rfl

@[simp] theorem setCompare_x (s : State) (c : Int) : (s.setCompare c).x = s.x := rfl
@[simp] theorem setCompare_strbuf (s : State) (c : Int) : (s.setCompare c).strbuf = s.strbuf := rfl
@[simp] theorem setCompare_strlen (s : State) (c : Int) : (s.setCompare c).strlen = s.strlen := rfl
@[simp] theorem setCompare_argLo (s : State) (c : Int) : (s.setCompare c).argLo = s.argLo := rfl
@[simp] theorem setCompare_argHi (s : State) (c : Int) : (s.setCompare c).argHi = s.argHi := rfl
@[simp] theorem setCompare_resLo (s : State) (c : Int) : (s.setCompare c).resLo = word c := rfl
@[simp] theorem setCompare_resHi (s : State) (c : Int) : (s.setCompare c).resHi = 0 := rfl
@[simp] theorem setCompare_busy (s : State) (c : Int) : (s.setCompare c).busy = s.busy := rfl
@[simp] theorem setCompare_err (s : State) (c : Int) : (s.setCompare c).err = s.err := rfl
@[simp] theorem setCompare_lost (s : State) (c : Int) : (s.setCompare c).lost = s.lost := rfl
@[simp] theorem setCompare_errcode (s : State) (c : Int) : (s.setCompare c).errcode = s.errcode := rfl
@[simp] theorem setCompare_cmp (s : State) (c : Int) : (s.setCompare c).cmp = cmpField c := rfl
@[simp] theorem setCompare_errcmd (s : State) (c : Int) : (s.setCompare c).errcmd = s.errcmd := rfl
@[simp] theorem setCompare_curCmd (s : State) (c : Int) : (s.setCompare c).curCmd = s.curCmd := rfl
@[simp] theorem setCompare_aLo (s : State) (c : Int) : (s.setCompare c).aLo = s.aLo := rfl
@[simp] theorem setCompare_aHi (s : State) (c : Int) : (s.setCompare c).aHi = s.aHi := rfl
@[simp] theorem setCompare_maxw (s : State) (c : Int) : (s.setCompare c).maxw = s.maxw := rfl
@[simp] theorem setCompare_strcap (s : State) (c : Int) : (s.setCompare c).strcap = s.strcap := rfl
@[simp] theorem setCompare_coreBase (s : State) (c : Int) : (s.setCompare c).coreBase = s.coreBase := rfl
@[simp] theorem setCompare_tape (s : State) (c : Int) : (s.setCompare c).tape = s.tape := rfl
@[simp] theorem setCompare_reads (s : State) (c : Int) : (s.setCompare c).reads = s.reads := rfl

@[simp] theorem setText_x (s : State) (t : List Byte) : (s.setText t).x = s.x := rfl
@[simp] theorem setText_strbuf (s : State) (t : List Byte) : (s.setText t).strbuf = Memory.writeAll s.strbuf 0 t := rfl
@[simp] theorem setText_strlen (s : State) (t : List Byte) : (s.setText t).strlen = t.length := rfl
@[simp] theorem setText_argLo (s : State) (t : List Byte) : (s.setText t).argLo = s.argLo := rfl
@[simp] theorem setText_argHi (s : State) (t : List Byte) : (s.setText t).argHi = s.argHi := rfl
@[simp] theorem setText_resLo (s : State) (t : List Byte) : (s.setText t).resLo = s.resLo := rfl
@[simp] theorem setText_resHi (s : State) (t : List Byte) : (s.setText t).resHi = s.resHi := rfl
@[simp] theorem setText_busy (s : State) (t : List Byte) : (s.setText t).busy = s.busy := rfl
@[simp] theorem setText_err (s : State) (t : List Byte) : (s.setText t).err = s.err := rfl
@[simp] theorem setText_lost (s : State) (t : List Byte) : (s.setText t).lost = s.lost := rfl
@[simp] theorem setText_errcode (s : State) (t : List Byte) : (s.setText t).errcode = s.errcode := rfl
@[simp] theorem setText_cmp (s : State) (t : List Byte) : (s.setText t).cmp = s.cmp := rfl
@[simp] theorem setText_errcmd (s : State) (t : List Byte) : (s.setText t).errcmd = s.errcmd := rfl
@[simp] theorem setText_curCmd (s : State) (t : List Byte) : (s.setText t).curCmd = s.curCmd := rfl
@[simp] theorem setText_aLo (s : State) (t : List Byte) : (s.setText t).aLo = s.aLo := rfl
@[simp] theorem setText_aHi (s : State) (t : List Byte) : (s.setText t).aHi = s.aHi := rfl
@[simp] theorem setText_maxw (s : State) (t : List Byte) : (s.setText t).maxw = s.maxw := rfl
@[simp] theorem setText_strcap (s : State) (t : List Byte) : (s.setText t).strcap = s.strcap := rfl
@[simp] theorem setText_coreBase (s : State) (t : List Byte) : (s.setText t).coreBase = s.coreBase := rfl
@[simp] theorem setText_tape (s : State) (t : List Byte) : (s.setText t).tape = s.tape := rfl
@[simp] theorem setText_reads (s : State) (t : List Byte) : (s.setText t).reads = s.reads := rfl

@[simp] theorem putText_x (s : State) (t : List Byte) : (s.putText t).x = s.x := rfl
@[simp] theorem putText_strbuf (s : State) (t : List Byte) : (s.putText t).strbuf = Memory.writeAll s.strbuf 0 t := rfl
@[simp] theorem putText_strlen (s : State) (t : List Byte) : (s.putText t).strlen = t.length := rfl
@[simp] theorem putText_argLo (s : State) (t : List Byte) : (s.putText t).argLo = s.argLo := rfl
@[simp] theorem putText_argHi (s : State) (t : List Byte) : (s.putText t).argHi = s.argHi := rfl
@[simp] theorem putText_resLo (s : State) (t : List Byte) : (s.putText t).resLo = BitVec.ofNat 32 t.length := rfl
@[simp] theorem putText_resHi (s : State) (t : List Byte) : (s.putText t).resHi = 0 := rfl
@[simp] theorem putText_busy (s : State) (t : List Byte) : (s.putText t).busy = s.busy := rfl
@[simp] theorem putText_err (s : State) (t : List Byte) : (s.putText t).err = s.err := rfl
@[simp] theorem putText_lost (s : State) (t : List Byte) : (s.putText t).lost = s.lost := rfl
@[simp] theorem putText_errcode (s : State) (t : List Byte) : (s.putText t).errcode = s.errcode := rfl
@[simp] theorem putText_cmp (s : State) (t : List Byte) : (s.putText t).cmp = s.cmp := rfl
@[simp] theorem putText_errcmd (s : State) (t : List Byte) : (s.putText t).errcmd = s.errcmd := rfl
@[simp] theorem putText_curCmd (s : State) (t : List Byte) : (s.putText t).curCmd = s.curCmd := rfl
@[simp] theorem putText_aLo (s : State) (t : List Byte) : (s.putText t).aLo = s.aLo := rfl
@[simp] theorem putText_aHi (s : State) (t : List Byte) : (s.putText t).aHi = s.aHi := rfl
@[simp] theorem putText_maxw (s : State) (t : List Byte) : (s.putText t).maxw = s.maxw := rfl
@[simp] theorem putText_strcap (s : State) (t : List Byte) : (s.putText t).strcap = s.strcap := rfl
@[simp] theorem putText_coreBase (s : State) (t : List Byte) : (s.putText t).coreBase = s.coreBase := rfl
@[simp] theorem putText_tape (s : State) (t : List Byte) : (s.putText t).tape = s.tape := rfl
@[simp] theorem putText_reads (s : State) (t : List Byte) : (s.putText t).reads = s.reads := rfl

@[simp] theorem complete_x (s : State) : (s.complete).x = s.x := rfl
@[simp] theorem complete_strbuf (s : State) : (s.complete).strbuf = s.strbuf := rfl
@[simp] theorem complete_strlen (s : State) : (s.complete).strlen = s.strlen := rfl
@[simp] theorem complete_argLo (s : State) : (s.complete).argLo = s.argLo := rfl
@[simp] theorem complete_argHi (s : State) : (s.complete).argHi = s.argHi := rfl
@[simp] theorem complete_resLo (s : State) : (s.complete).resLo = s.resLo := rfl
@[simp] theorem complete_resHi (s : State) : (s.complete).resHi = s.resHi := rfl
@[simp] theorem complete_busy (s : State) : (s.complete).busy = false := rfl
@[simp] theorem complete_err (s : State) : (s.complete).err = s.err := rfl
@[simp] theorem complete_lost (s : State) : (s.complete).lost = s.lost := rfl
@[simp] theorem complete_errcode (s : State) : (s.complete).errcode = s.errcode := rfl
@[simp] theorem complete_cmp (s : State) : (s.complete).cmp = s.cmp := rfl
@[simp] theorem complete_errcmd (s : State) : (s.complete).errcmd = s.errcmd := rfl
@[simp] theorem complete_curCmd (s : State) : (s.complete).curCmd = 0 := rfl
@[simp] theorem complete_aLo (s : State) : (s.complete).aLo = 0 := rfl
@[simp] theorem complete_aHi (s : State) : (s.complete).aHi = 0 := rfl
@[simp] theorem complete_maxw (s : State) : (s.complete).maxw = s.maxw := rfl
@[simp] theorem complete_strcap (s : State) : (s.complete).strcap = s.strcap := rfl
@[simp] theorem complete_coreBase (s : State) : (s.complete).coreBase = s.coreBase := rfl
@[simp] theorem complete_tape (s : State) : (s.complete).tape = s.tape := rfl
@[simp] theorem complete_reads (s : State) : (s.complete).reads = s.reads := rfl

@[simp] theorem raise_x (s : State) (e : Err) : (s.raise e).x = s.x := rfl
@[simp] theorem raise_strbuf (s : State) (e : Err) : (s.raise e).strbuf = s.strbuf := rfl
@[simp] theorem raise_strlen (s : State) (e : Err) : (s.raise e).strlen = s.strlen := rfl
@[simp] theorem raise_argLo (s : State) (e : Err) : (s.raise e).argLo = s.argLo := rfl
@[simp] theorem raise_argHi (s : State) (e : Err) : (s.raise e).argHi = s.argHi := rfl
@[simp] theorem raise_resLo (s : State) (e : Err) : (s.raise e).resLo = s.resLo := rfl
@[simp] theorem raise_resHi (s : State) (e : Err) : (s.raise e).resHi = s.resHi := rfl
@[simp] theorem raise_busy (s : State) (e : Err) : (s.raise e).busy = false := rfl
@[simp] theorem raise_err (s : State) (e : Err) : (s.raise e).err = true := rfl
@[simp] theorem raise_lost (s : State) (e : Err) : (s.raise e).lost = s.lost := rfl
@[simp] theorem raise_errcode (s : State) (e : Err) : (s.raise e).errcode = e.code := rfl
@[simp] theorem raise_cmp (s : State) (e : Err) : (s.raise e).cmp = s.cmp := rfl
@[simp] theorem raise_errcmd (s : State) (e : Err) : (s.raise e).errcmd = s.curCmd := rfl
@[simp] theorem raise_curCmd (s : State) (e : Err) : (s.raise e).curCmd = 0 := rfl
@[simp] theorem raise_aLo (s : State) (e : Err) : (s.raise e).aLo = 0 := rfl
@[simp] theorem raise_aHi (s : State) (e : Err) : (s.raise e).aHi = 0 := rfl
@[simp] theorem raise_maxw (s : State) (e : Err) : (s.raise e).maxw = s.maxw := rfl
@[simp] theorem raise_strcap (s : State) (e : Err) : (s.raise e).strcap = s.strcap := rfl
@[simp] theorem raise_coreBase (s : State) (e : Err) : (s.raise e).coreBase = s.coreBase := rfl
@[simp] theorem raise_tape (s : State) (e : Err) : (s.raise e).tape = s.tape := rfl
@[simp] theorem raise_reads (s : State) (e : Err) : (s.raise e).reads = s.reads := rfl

@[simp] theorem accept_x (s : State) (c : Word) : (s.accept c).x = s.x := rfl
@[simp] theorem accept_strbuf (s : State) (c : Word) : (s.accept c).strbuf = s.strbuf := rfl
@[simp] theorem accept_strlen (s : State) (c : Word) : (s.accept c).strlen = s.strlen := rfl
@[simp] theorem accept_argLo (s : State) (c : Word) : (s.accept c).argLo = s.argLo := rfl
@[simp] theorem accept_argHi (s : State) (c : Word) : (s.accept c).argHi = s.argHi := rfl
@[simp] theorem accept_resLo (s : State) (c : Word) : (s.accept c).resLo = s.resLo := rfl
@[simp] theorem accept_resHi (s : State) (c : Word) : (s.accept c).resHi = s.resHi := rfl
@[simp] theorem accept_busy (s : State) (c : Word) : (s.accept c).busy = true := rfl
@[simp] theorem accept_err (s : State) (c : Word) : (s.accept c).err = s.err := rfl
@[simp] theorem accept_lost (s : State) (c : Word) : (s.accept c).lost = s.lost := rfl
@[simp] theorem accept_errcode (s : State) (c : Word) : (s.accept c).errcode = s.errcode := rfl
@[simp] theorem accept_cmp (s : State) (c : Word) : (s.accept c).cmp = s.cmp := rfl
@[simp] theorem accept_errcmd (s : State) (c : Word) : (s.accept c).errcmd = s.errcmd := rfl
@[simp] theorem accept_curCmd (s : State) (c : Word) : (s.accept c).curCmd = c := rfl
@[simp] theorem accept_aLo (s : State) (c : Word) : (s.accept c).aLo = s.argLo := rfl
@[simp] theorem accept_aHi (s : State) (c : Word) : (s.accept c).aHi = s.argHi := rfl
@[simp] theorem accept_maxw (s : State) (c : Word) : (s.accept c).maxw = s.maxw := rfl
@[simp] theorem accept_strcap (s : State) (c : Word) : (s.accept c).strcap = s.strcap := rfl
@[simp] theorem accept_coreBase (s : State) (c : Word) : (s.accept c).coreBase = s.coreBase := rfl
@[simp] theorem accept_tape (s : State) (c : Word) : (s.accept c).tape = s.tape := rfl
@[simp] theorem accept_reads (s : State) (c : Word) : (s.accept c).reads = s.reads := rfl

@[simp] theorem recordRead_x (s : State) (v : Word) : (s.recordRead v).x = s.x := rfl
@[simp] theorem recordRead_strbuf (s : State) (v : Word) : (s.recordRead v).strbuf = s.strbuf := rfl
@[simp] theorem recordRead_strlen (s : State) (v : Word) : (s.recordRead v).strlen = s.strlen := rfl
@[simp] theorem recordRead_argLo (s : State) (v : Word) : (s.recordRead v).argLo = s.argLo := rfl
@[simp] theorem recordRead_argHi (s : State) (v : Word) : (s.recordRead v).argHi = s.argHi := rfl
@[simp] theorem recordRead_resLo (s : State) (v : Word) : (s.recordRead v).resLo = s.resLo := rfl
@[simp] theorem recordRead_resHi (s : State) (v : Word) : (s.recordRead v).resHi = s.resHi := rfl
@[simp] theorem recordRead_busy (s : State) (v : Word) : (s.recordRead v).busy = s.busy := rfl
@[simp] theorem recordRead_err (s : State) (v : Word) : (s.recordRead v).err = s.err := rfl
@[simp] theorem recordRead_lost (s : State) (v : Word) : (s.recordRead v).lost = s.lost := rfl
@[simp] theorem recordRead_errcode (s : State) (v : Word) : (s.recordRead v).errcode = s.errcode := rfl
@[simp] theorem recordRead_cmp (s : State) (v : Word) : (s.recordRead v).cmp = s.cmp := rfl
@[simp] theorem recordRead_errcmd (s : State) (v : Word) : (s.recordRead v).errcmd = s.errcmd := rfl
@[simp] theorem recordRead_curCmd (s : State) (v : Word) : (s.recordRead v).curCmd = s.curCmd := rfl
@[simp] theorem recordRead_aLo (s : State) (v : Word) : (s.recordRead v).aLo = s.aLo := rfl
@[simp] theorem recordRead_aHi (s : State) (v : Word) : (s.recordRead v).aHi = s.aHi := rfl
@[simp] theorem recordRead_maxw (s : State) (v : Word) : (s.recordRead v).maxw = s.maxw := rfl
@[simp] theorem recordRead_strcap (s : State) (v : Word) : (s.recordRead v).strcap = s.strcap := rfl
@[simp] theorem recordRead_coreBase (s : State) (v : Word) : (s.recordRead v).coreBase = s.coreBase := rfl
@[simp] theorem recordRead_tape (s : State) (v : Word) : (s.recordRead v).tape = s.tape := rfl
@[simp] theorem recordRead_reads (s : State) (v : Word) : (s.recordRead v).reads = v :: s.reads := rfl

@[simp] theorem popTape_x (s : State) : (s.popTape).x = s.x := rfl
@[simp] theorem popTape_strbuf (s : State) : (s.popTape).strbuf = s.strbuf := rfl
@[simp] theorem popTape_strlen (s : State) : (s.popTape).strlen = s.strlen := rfl
@[simp] theorem popTape_argLo (s : State) : (s.popTape).argLo = s.argLo := rfl
@[simp] theorem popTape_argHi (s : State) : (s.popTape).argHi = s.argHi := rfl
@[simp] theorem popTape_resLo (s : State) : (s.popTape).resLo = s.resLo := rfl
@[simp] theorem popTape_resHi (s : State) : (s.popTape).resHi = s.resHi := rfl
@[simp] theorem popTape_busy (s : State) : (s.popTape).busy = s.busy := rfl
@[simp] theorem popTape_err (s : State) : (s.popTape).err = s.err := rfl
@[simp] theorem popTape_lost (s : State) : (s.popTape).lost = s.lost := rfl
@[simp] theorem popTape_errcode (s : State) : (s.popTape).errcode = s.errcode := rfl
@[simp] theorem popTape_cmp (s : State) : (s.popTape).cmp = s.cmp := rfl
@[simp] theorem popTape_errcmd (s : State) : (s.popTape).errcmd = s.errcmd := rfl
@[simp] theorem popTape_curCmd (s : State) : (s.popTape).curCmd = s.curCmd := rfl
@[simp] theorem popTape_aLo (s : State) : (s.popTape).aLo = s.aLo := rfl
@[simp] theorem popTape_aHi (s : State) : (s.popTape).aHi = s.aHi := rfl
@[simp] theorem popTape_maxw (s : State) : (s.popTape).maxw = s.maxw := rfl
@[simp] theorem popTape_strcap (s : State) : (s.popTape).strcap = s.strcap := rfl
@[simp] theorem popTape_coreBase (s : State) : (s.popTape).coreBase = s.coreBase := rfl
@[simp] theorem popTape_tape (s : State) : (s.popTape).tape = s.tape.tail := rfl
@[simp] theorem popTape_reads (s : State) : (s.popTape).reads = s.reads := rfl

@[simp] theorem acknowledge_err (s : State) (v : Word) :
    (s.acknowledge v).err = if v.getLsbD 1 then false else s.err := rfl
@[simp] theorem acknowledge_errcode (s : State) (v : Word) :
    (s.acknowledge v).errcode = if v.getLsbD 1 then 0 else s.errcode := rfl
@[simp] theorem acknowledge_lost (s : State) (v : Word) :
    (s.acknowledge v).lost = if v.getLsbD 2 then false else s.lost := rfl
@[simp] theorem acknowledge_x (s : State) (v : Word) : (s.acknowledge v).x = s.x := rfl
@[simp] theorem acknowledge_strbuf (s : State) (v : Word) : (s.acknowledge v).strbuf = s.strbuf := rfl
@[simp] theorem acknowledge_strlen (s : State) (v : Word) : (s.acknowledge v).strlen = s.strlen := rfl
@[simp] theorem acknowledge_argLo (s : State) (v : Word) : (s.acknowledge v).argLo = s.argLo := rfl
@[simp] theorem acknowledge_argHi (s : State) (v : Word) : (s.acknowledge v).argHi = s.argHi := rfl
@[simp] theorem acknowledge_resLo (s : State) (v : Word) : (s.acknowledge v).resLo = s.resLo := rfl
@[simp] theorem acknowledge_resHi (s : State) (v : Word) : (s.acknowledge v).resHi = s.resHi := rfl
@[simp] theorem acknowledge_busy (s : State) (v : Word) : (s.acknowledge v).busy = s.busy := rfl
@[simp] theorem acknowledge_cmp (s : State) (v : Word) : (s.acknowledge v).cmp = s.cmp := rfl
@[simp] theorem acknowledge_errcmd (s : State) (v : Word) : (s.acknowledge v).errcmd = s.errcmd := rfl
@[simp] theorem acknowledge_curCmd (s : State) (v : Word) : (s.acknowledge v).curCmd = s.curCmd := rfl
@[simp] theorem acknowledge_aLo (s : State) (v : Word) : (s.acknowledge v).aLo = s.aLo := rfl
@[simp] theorem acknowledge_aHi (s : State) (v : Word) : (s.acknowledge v).aHi = s.aHi := rfl
@[simp] theorem acknowledge_maxw (s : State) (v : Word) : (s.acknowledge v).maxw = s.maxw := rfl
@[simp] theorem acknowledge_strcap (s : State) (v : Word) : (s.acknowledge v).strcap = s.strcap := rfl
@[simp] theorem acknowledge_coreBase (s : State) (v : Word) : (s.acknowledge v).coreBase = s.coreBase := rfl
@[simp] theorem acknowledge_tape (s : State) (v : Word) : (s.acknowledge v).tape = s.tape := rfl
@[simp] theorem acknowledge_reads (s : State) (v : Word) : (s.acknowledge v).reads = s.reads := rfl

/-- A register just written holds what was written. -/
@[simp] theorem reg_setReg_same (s : State) (r : Reg) (v : Value) : (s.setReg r v).reg r = v := by
  simp [State.reg]

/-- Writing a register leaves every other register alone. -/
theorem reg_setReg_other (s : State) (r r' : Reg) (v : Value) (h : r' ≠ r) : (s.setReg r v).reg r' = s.reg r' := by
  have hne : r.toNat ≠ r'.toNat := fun e => h (BitVec.eq_of_toNat_eq e.symm)
  simp [State.reg, hne]

/-- A register's value depends on the register file alone. -/
theorem reg_congr (s t : State) (r : Reg) (h : t.x = s.x) : t.reg r = s.reg r := by
  simp [State.reg, h]

/-- Every register is EMPTY after reset (R50). -/
@[simp] theorem reg_resetWith (m c : Word) (b : Nat) (r : Reg) : (State.resetWith m c b).reg r = .empty := by
  simp [State.reg, State.resetWith]

end Sys2Proof.Machine
end

