-- ==== Sys2Proof/Laws/Ops.lean ====
section
/-! SUPPORT. What each shared operation can do, said once: the register readers, the register writers, the shapes the commands
share, the end of a command, and the host's accesses. -/

namespace Sys2Proof.Machine

theorem readInt_eq_ok (s : State) (r : Reg) (z : Int) : s.readInt r = .ok z ↔ HoldsInt s r z := by
  unfold State.readInt HoldsInt
  cases s.reg r <;> simp

theorem readInt_eq_error (s : State) (r : Reg) (e : Err) : s.readInt r = .error e ↔ FailsInt s r e := by
  unfold State.readInt FailsInt
  cases s.reg r <;> simp [eq_comm]

theorem readLong_eq_ok (s : State) (r : Reg) (z : Int) : s.readLong r = .ok z ↔ HoldsLong s r z := by
  unfold State.readLong HoldsLong
  cases s.reg r <;> simp

theorem readLong_eq_error (s : State) (r : Reg) (e : Err) : s.readLong r = .error e ↔ FailsLong s r e := by
  unfold State.readLong FailsLong
  cases s.reg r <;> simp [eq_comm]

theorem fits_iff (s : State) (z : Int) : Fits s z ↔ intLen z ≤ s.maxw.toNat := (intLen_le_iff z _).symm

theorem isInt_mkInt (z : Int) : IsInt (mkInt z) z :=
  ⟨_, _, rfl, ⟨signWord_cases z, getLast_mkInt_ne z⟩, intVal_mkInt z⟩

theorem isLong_mkLong (z : Int) : IsLong (mkLong z) (wrap64 z) := ⟨_, _, rfl, longVal_mkLong z⟩

theorem writeInt_of_fits (s : State) (r : Reg) (z : Int) (h : Fits s z) : s.writeInt r z = .ok (s.setReg r (mkInt z)) := by
  have := (fits_iff s z).1 h
  simp [State.writeInt, Nat.not_lt.2 this]

theorem writeInt_of_not_fits (s : State) (r : Reg) (z : Int) (h : ¬Fits s z) : s.writeInt r z = .error .capacity := by
  rw [fits_iff, Nat.not_le] at h
  simp [State.writeInt, h]

/-- Writing an Integer either writes its canonical form or raises CAPACITY. -/
theorem writeInt_cases (s : State) (r : Reg) (z : Int) :
    (Fits s z ∧ s.writeInt r z = .ok (s.setReg r (mkInt z))) ∨ (¬Fits s z ∧ s.writeInt r z = .error .capacity) := by
  by_cases h : Fits s z
  · exact .inl ⟨h, writeInt_of_fits s r z h⟩
  · exact .inr ⟨h, writeInt_of_not_fits s r z h⟩

@[simp] theorem finish_ok (s t : State) : finish s (.ok t) = .next t.complete := rfl

@[simp] theorem finish_error (s : State) (e : Err) : finish s (.error e) = .next (s.raise e) := rfl

/-- The end of a command: its buffered writes, or its error taken from the state before it. -/
theorem finish_cases (s t : State) (r : Except Err State) (h : finish s r = .next t) :
    (∃ u, r = .ok u ∧ t = u.complete) ∨ (∃ e, r = .error e ∧ t = s.raise e) := by
  cases r with
  | ok u => exact .inl ⟨u, rfl, by simpa using h.symm⟩
  | error e => exact .inr ⟨e, rfl, by simpa using h.symm⟩

section Shapes
variable (s : State) (d a b : Reg)

theorem intUnary_ok (f : Int → Int) (z : Int) (h : HoldsInt s a z) : intUnary s d a f = s.writeInt d (f z) := by
  simp [intUnary, (readInt_eq_ok s a z).2 h, bind, Except.bind]

theorem intUnary_error (f : Int → Int) (e : Err) (h : FailsInt s a e) : intUnary s d a f = .error e := by
  simp [intUnary, (readInt_eq_error s a e).2 h, bind, Except.bind]

theorem longUnary_ok (f : Int → Int) (z : Int) (h : HoldsLong s a z) :
    longUnary s d a f = .ok (s.writeLong d (f z)) := by
  simp [longUnary, (readLong_eq_ok s a z).2 h, bind, Except.bind]

theorem longUnary_error (f : Int → Int) (e : Err) (h : FailsLong s a e) : longUnary s d a f = .error e := by
  simp [longUnary, (readLong_eq_error s a e).2 h, bind, Except.bind]

theorem intBinary_ok (f : Int → Int → Int) (p q : Int) (ha : HoldsInt s a p) (hb : HoldsInt s b q) :
    intBinary s d a b f = s.writeInt d (f p q) := by
  simp [intBinary, (readInt_eq_ok s a p).2 ha, (readInt_eq_ok s b q).2 hb, bind, Except.bind]

theorem intBinary_error_left (f : Int → Int → Int) (e : Err) (h : FailsInt s a e) : intBinary s d a b f = .error e := by
  simp [intBinary, (readInt_eq_error s a e).2 h, bind, Except.bind]

theorem intBinary_error_right (f : Int → Int → Int) (p : Int) (e : Err) (ha : HoldsInt s a p) (h : FailsInt s b e) :
    intBinary s d a b f = .error e := by
  simp [intBinary, (readInt_eq_ok s a p).2 ha, (readInt_eq_error s b e).2 h, bind, Except.bind]

theorem longBinary_ok (f : Int → Int → Int) (p q : Int) (ha : HoldsLong s a p) (hb : HoldsLong s b q) :
    longBinary s d a b f = .ok (s.writeLong d (f p q)) := by
  simp [longBinary, (readLong_eq_ok s a p).2 ha, (readLong_eq_ok s b q).2 hb, bind, Except.bind]

theorem longBinary_error_left (f : Int → Int → Int) (e : Err) (h : FailsLong s a e) : longBinary s d a b f = .error e := by
  simp [longBinary, (readLong_eq_error s a e).2 h, bind, Except.bind]

theorem longBinary_error_right (f : Int → Int → Int) (p : Int) (e : Err) (ha : HoldsLong s a p) (h : FailsLong s b e) :
    longBinary s d a b f = .error e := by
  simp [longBinary, (readLong_eq_ok s a p).2 ha, (readLong_eq_error s b e).2 h, bind, Except.bind]

theorem intDivision_ok (f : Int → Int → Int) (p q : Int) (ha : HoldsInt s a p) (hb : HoldsInt s b q) :
    intDivision s d a b f = if q = 0 then .error .divzero else s.writeInt d (f p q) := by
  simp [intDivision, (readInt_eq_ok s a p).2 ha, (readInt_eq_ok s b q).2 hb, bind, Except.bind]

theorem intDivision_error_left (f : Int → Int → Int) (e : Err) (h : FailsInt s a e) : intDivision s d a b f = .error e := by
  simp [intDivision, (readInt_eq_error s a e).2 h, bind, Except.bind]

theorem intDivision_error_right (f : Int → Int → Int) (p : Int) (e : Err) (ha : HoldsInt s a p) (h : FailsInt s b e) :
    intDivision s d a b f = .error e := by
  simp [intDivision, (readInt_eq_ok s a p).2 ha, (readInt_eq_error s b e).2 h, bind, Except.bind]

theorem longDivision_ok (f : Int → Int → Int) (p q : Int) (ha : HoldsLong s a p) (hb : HoldsLong s b q) :
    longDivision s d a b f = if q = 0 then .error .divzero else .ok (s.writeLong d (f p q)) := by
  simp [longDivision, (readLong_eq_ok s a p).2 ha, (readLong_eq_ok s b q).2 hb, bind, Except.bind]

theorem longDivision_error_left (f : Int → Int → Int) (e : Err) (h : FailsLong s a e) :
    longDivision s d a b f = .error e := by
  simp [longDivision, (readLong_eq_error s a e).2 h, bind, Except.bind]

theorem longDivision_error_right (f : Int → Int → Int) (p : Int) (e : Err) (ha : HoldsLong s a p) (h : FailsLong s b e) :
    longDivision s d a b f = .error e := by
  simp [longDivision, (readLong_eq_ok s a p).2 ha, (readLong_eq_error s b e).2 h, bind, Except.bind]

end Shapes

/-- A register holds nothing, an Integer or a Long, so reading it as an Integer succeeds or fails. -/
theorem holdsInt_or_failsInt (s : State) (r : Reg) : (∃ z, HoldsInt s r z) ∨ (∃ e, FailsInt s r e) := by
  cases h : s.readInt r with
  | ok z => exact .inl ⟨z, (readInt_eq_ok s r z).1 h⟩
  | error e => exact .inr ⟨e, (readInt_eq_error s r e).1 h⟩

theorem holdsLong_or_failsLong (s : State) (r : Reg) : (∃ z, HoldsLong s r z) ∨ (∃ e, FailsLong s r e) := by
  cases h : s.readLong r with
  | ok z => exact .inl ⟨z, (readLong_eq_ok s r z).1 h⟩
  | error e => exact .inr ⟨e, (readLong_eq_error s r e).1 h⟩

/-- Everything the shape of a two-operand Integer command can answer. -/
theorem intBinary_cases (s : State) (d a b : Reg) (f : Int → Int → Int) :
    (∃ p q, HoldsInt s a p ∧ HoldsInt s b q ∧ intBinary s d a b f = s.writeInt d (f p q)) ∨
    (∃ e, (e = .unwritten ∨ e = .type) ∧ intBinary s d a b f = .error e) := by
  rcases holdsInt_or_failsInt s a with ⟨p, hp⟩ | ⟨e, he⟩
  · rcases holdsInt_or_failsInt s b with ⟨q, hq⟩ | ⟨e, he⟩
    · exact .inl ⟨p, q, hp, hq, intBinary_ok s d a b f p q hp hq⟩
    · refine .inr ⟨e, ?_, intBinary_error_right s d a b f p e hp he⟩
      rcases he with ⟨_, h⟩ | ⟨_, _, _, h⟩ <;> simp [h]
  · refine .inr ⟨e, ?_, intBinary_error_left s d a b f e he⟩
    rcases he with ⟨_, h⟩ | ⟨_, _, _, h⟩ <;> simp [h]

/-- A host read that answers only records a word; it reads a defined access in the window. -/
theorem hostRead_next (s t : State) (addr bytes : Nat) (h : hostRead s addr bytes = .next t) :
    s.inWindow addr = true ∧ s.definedAccess addr bytes = true ∧
      t = s.recordRead (s.windowRead (addr - s.coreBase)) := by
  unfold hostRead at h
  split at h
  · split at h
    · rename_i h1 h2
      exact ⟨h1, h2, by simpa using h.symm⟩
    · simp at h
  · simp at h

/-- A host write that answers is a defined access in the window. -/
theorem hostWrite_next (s t : State) (addr bytes : Nat) (v : Word) (h : hostWrite s addr bytes v = .next t) :
    s.inWindow addr = true ∧ s.definedAccess addr bytes = true ∧ t = s.windowWrite (addr - s.coreBase) v := by
  unfold hostWrite at h
  split at h
  · split at h
    · rename_i h1 h2
      exact ⟨h1, h2, by simpa using h.symm⟩
    · simp at h
  · simp at h

/-- Everything a window write can do. -/
theorem windowWrite_cases (s : State) (off : Nat) (v : Word) :
    s.windowWrite off v = { s with lost := true } ∨
    (s.busy = false ∧ s.err = false ∧ s.windowWrite off v = s.accept v) ∨
    s.windowWrite off v = { s with argLo := v } ∨
    s.windowWrite off v = { s with argHi := v } ∨
    s.windowWrite off v = s.acknowledge v ∨
    s.windowWrite off v = s := by
  unfold State.windowWrite State.writeCmd
  split
  · split
    · exact .inl rfl
    · rename_i h
      simp only [Bool.or_eq_true, not_or, Bool.not_eq_true] at h
      exact .inr (.inl ⟨h.1, h.2, rfl⟩)
  · split
    · exact .inr (.inr (.inl rfl))
    · split
      · exact .inr (.inr (.inr (.inl rfl)))
      · split
        · exact .inr (.inr (.inr (.inr (.inl rfl))))
        · exact .inr (.inr (.inr (.inr (.inr rfl))))

end Sys2Proof.Machine
end

