-- ==== Sys2Proof/Laws/Exec.lean ====
section
/-! SUPPORT. What `exec` can do, said once: every command ends through `finish`, with the buffered writes of `effect`. -/

namespace Sys2Proof.Machine

/-- The buffered writes of a command, or its error, before the one event in which it completes (R26). -/
def effect (i : Instr) (s : State) : Except Err State :=
  match i with
  | .nop => .ok s
  | .movI d a => do
      let z ← s.readInt a
      .ok (s.setReg d (mkInt z))
  | .movL d a => longUnary s d a (fun z => z)
  | .ldiI d => s.writeInt d s.aLo.toInt
  | .ldiL d => .ok (s.writeLong d s.aLo.toInt)
  | .ldpI d => s.writeInt d s.argPair.toInt
  | .ldpL d => .ok (s.setReg d (.long s.aLo s.aHi))
  | .wpushI d => do
      let z ← s.readInt d
      s.writeInt d (z * ((2 ^ 32 : Nat) : Int) + (s.aLo.toNat : Int))
  | .ldnI d => s.writeInt d (truncDouble (f64 s.argPair))
  | .ldnL d => .ok (s.writeLong d (saturateDouble (f64 s.argPair)))
  | .cvtI d a => do
      let _ ← s.readInt a
      .ok (s.setReg d (.long (getBits (s.reg a) 0) (getBits (s.reg a) 1)))
  | .cvtL d a => do
      let z ← s.readLong a
      s.writeInt d z
  | .rdwI a => do
      let z ← s.readInt a
      .ok (s.setRes (getBits (mkInt z) s.aLo.toInt) 0)
  | .rdwL a => do
      let _ ← s.readLong a
      .ok (s.setRes (getBits (s.reg a) s.aLo.toInt) 0)
  | .lenI a => do
      let z ← s.readInt a
      .ok (s.setRes (BitVec.ofNat 32 (intLen z)) (signWord z))
  | .tonatI a => do
      let z ← s.readInt a
      .ok (s.setResDouble z)
  | .tonatL a => do
      let z ← s.readLong a
      .ok (s.setResDouble z)
  | .addI d a b => intBinary s d a b (fun p q => p + q)
  | .addL d a b => longBinary s d a b (fun p q => p + q)
  | .subI d a b => intBinary s d a b (fun p q => p - q)
  | .subL d a b => longBinary s d a b (fun p q => p - q)
  | .negI d a => intUnary s d a (fun z => -z)
  | .negL d a => longUnary s d a (fun z => -z)
  | .mulI d a b => intBinary s d a b (fun p q => p * q)
  | .mulL d a b => longBinary s d a b (fun p q => p * q)
  | .quotI d a b => intDivision s d a b tdiv
  | .quotL d a b => longDivision s d a b tdiv
  | .remI d a b => intDivision s d a b tmod
  | .remL d a b => longDivision s d a b tmod
  | .divI d a b => intDivision s d a b fdiv
  | .divL d a b => longDivision s d a b fdiv
  | .modI d a b => intDivision s d a b fmod
  | .modL d a b => longDivision s d a b fmod
  | .cmpI a b => do
      let p ← s.readInt a
      let q ← s.readInt b
      .ok (s.setCompare (compareResult p q))
  | .cmpL a b => do
      let p ← s.readLong a
      let q ← s.readLong b
      .ok (s.setCompare (compareResult p q))
  | .sgnI a => do
      let z ← s.readInt a
      .ok (s.setCompare (compareResult z 0))
  | .sgnL a => do
      let z ← s.readLong a
      .ok (s.setCompare (compareResult z 0))
  | .andI d a b => intBinary s d a b land
  | .andL d a b => longBinary s d a b land
  | .orI d a b => intBinary s d a b lor
  | .orL d a b => longBinary s d a b lor
  | .xorI d a b => intBinary s d a b lxor
  | .xorL d a b => longBinary s d a b lxor
  | .notI d a => intUnary s d a lnot
  | .notL d a => longUnary s d a lnot
  | .shlI d a sh => intUnary s d a (fun z => shiftLeft z sh)
  | .shlL d a sh => longUnary s d a (fun z => shiftLeft z sh)
  | .shrI d a sh => intUnary s d a (fun z => shiftRight z sh)
  | .shrL d a sh => longUnary s d a (fun z => shiftRight z sh)
  | .sclr => .ok { s with strlen := 0 }
  | .sput => if s.strlen = s.strcap.toNat then .error .strovf
      else .ok { s with
        strbuf := Memory.write s.strbuf s.strlen (s.aLo.extractLsb' 0 8)
        strlen := s.strlen + 1 }
  | .sget => if s.strlen ≤ s.aLo.toNat then .error .stridx
      else .ok (s.setRes ((Memory.read s.strbuf s.aLo.toNat).zeroExtend 32) 0)
  | .parseI d radix => do
      let z ← parse s.text radix
      s.writeInt d z
  | .tostrI a => do
      let z ← s.readInt a
      .ok (s.putText (dec z))
  | .tostrL a => do
      let z ← s.readLong a
      .ok (s.putText (dec z))
  | .decd d => do
      let t ← s.writeInt d (f64Mantissa s.argPair : Nat)
      .ok (t.setRes (word (f64Exponent s.argPair)) (signResult (f64Sign s.argPair)))
  | .decf d => do
      let t ← s.writeInt d (f32Mantissa s.aLo : Nat)
      .ok (t.setRes (word (f32Exponent s.aLo)) (signResult (f32Sign s.aLo)))

theorem exec_eq_finish (i : Instr) (s : State) : exec i s = finish s (effect i s) := by
  cases i <;> rfl

/-- A command ends with its buffered writes or with its error. -/
theorem exec_cases (i : Instr) (s t : State) (h : exec i s = .next t) :
    (∃ u, effect i s = .ok u ∧ t = u.complete) ∨ (∃ e, effect i s = .error e ∧ t = s.raise e) := by
  rw [exec_eq_finish] at h
  exact finish_cases s t _ h

/-- If a sequence of two parts answers, both parts do. -/
theorem bind_eq_ok {α β : Type} {x : Except Err α} {f : α → Except Err β} {b : β} (h : (x >>= f) = .ok b) :
    ∃ a, x = .ok a ∧ f a = .ok b := by
  cases x with
  | error e => simp [bind, Except.bind] at h
  | ok a => exact ⟨a, rfl, h⟩

theorem writeInt_eq_ok {s t : State} {d : Reg} {z : Int} (h : s.writeInt d z = .ok t) :
    Fits s z ∧ t = s.setReg d (mkInt z) := by
  rcases writeInt_cases s d z with ⟨hf, e⟩ | ⟨_, e⟩
  · rw [e] at h; exact ⟨hf, by simpa using h.symm⟩
  · rw [e] at h; simp at h

end Sys2Proof.Machine
end

