-- ==== Sys2Proof/Laws/Memory.lean ====
section
/-! SUPPORT. Laws of the string buffer's bytes: read after write, writes elsewhere, and the canonical form. -/

namespace Sys2Proof.Machine

theorem Memory.read_eq_unlisted (m : Memory) (a : Nat) (h : ∀ c ∈ m, c.1 ≠ a) : Memory.read m a = Config.unlistedByte := by
  induction m with
  | nil => rfl
  | cons c t ih =>
    obtain ⟨k, v⟩ := c
    have hk : a ≠ k := fun e => h (k, v) (by simp) e.symm
    simp only [Memory.read, hk, if_false]
    exact ih (fun c hc => h c (by simp [hc]))

/-- A write leaves every other address alone. -/
theorem Memory.read_write_other (m : Memory) (a a' : Nat) (b : Byte) (h : a' ≠ a) :
    Memory.read (Memory.write m a b) a' = Memory.read m a' := by
  induction m with
  | nil => simp only [Memory.write]; split <;> simp [Memory.read, h]
  | cons c t ih =>
    obtain ⟨k, v⟩ := c
    simp only [Memory.write]
    split
    · split <;> simp [Memory.read, h]
    · split
      · rename_i _ e
        subst e
        split <;> simp [Memory.read, h]
      · simp only [Memory.read, ih]

theorem Memory.mem_write (m : Memory) (a : Nat) (b : Byte) (c : Host.Cell) (hc : c ∈ Memory.write m a b) :
    c ∈ m ∨ (c = (a, b) ∧ b ≠ Config.unlistedByte) := by
  induction m with
  | nil =>
    simp only [Memory.write] at hc
    split at hc
    · simp at hc
    · rename_i hb
      simp only [List.mem_singleton] at hc
      exact .inr ⟨hc, hb⟩
  | cons d t ih =>
    obtain ⟨k, v⟩ := d
    simp only [Memory.write] at hc
    split at hc
    · split at hc
      · exact .inl hc
      · rename_i hb
        rcases List.mem_cons.1 hc with h | h
        · exact .inr ⟨h, hb⟩
        · exact .inl h
    · split at hc
      · split at hc
        · exact .inl (List.mem_cons_of_mem _ hc)
        · rename_i hb
          rcases List.mem_cons.1 hc with h | h
          · exact .inr ⟨h, hb⟩
          · exact .inl (List.mem_cons_of_mem _ h)
      · rcases List.mem_cons.1 hc with h | h
        · exact .inl (by simp [h])
        · rcases ih h with h | h
          · exact .inl (List.mem_cons_of_mem _ h)
          · exact .inr h

/-- A write keeps the canonical form. -/
theorem Memory.write_wf (m : Memory) (a : Nat) (b : Byte) (h : Memory.wf m) : Memory.wf (Memory.write m a b) := by
  refine ⟨?_, ?_⟩
  · have hp := h.1
    clear h
    induction m with
    | nil => simp only [Memory.write]; split <;> simp
    | cons d t ih =>
      obtain ⟨k, v⟩ := d
      have hkt := (List.pairwise_cons.1 hp).1
      have htp := (List.pairwise_cons.1 hp).2
      simp only [Memory.write]
      split
      · rename_i hak
        split
        · exact hp
        · refine List.pairwise_cons.2 ⟨?_, hp⟩
          intro c hc
          rcases List.mem_cons.1 hc with e | e
          · simp [e, hak]
          · exact lt_trans hak (hkt c e)
      · split
        · rename_i _ e
          subst e
          split
          · exact htp
          · exact List.pairwise_cons.2 ⟨hkt, htp⟩
        · rename_i h1 h2
          refine List.pairwise_cons.2 ⟨?_, ih htp⟩
          intro c hc
          rcases Memory.mem_write t a b c hc with e | ⟨e, _⟩
          · exact hkt c e
          · simp only [e]; omega
  · intro c hc
    rcases Memory.mem_write m a b c hc with e | ⟨e, hb⟩
    · exact h.2 c e
    · simpa [e] using hb

/-- A byte just written reads as written, in a memory of canonical form. -/
theorem Memory.read_write_same (m : Memory) (a : Nat) (b : Byte) (h : m.Pairwise (fun p q => p.1 < q.1)) :
    Memory.read (Memory.write m a b) a = b := by
  induction m with
  | nil => simp only [Memory.write]; split <;> simp_all [Memory.read]
  | cons d t ih =>
    obtain ⟨k, v⟩ := d
    have hkt := (List.pairwise_cons.1 h).1
    have htp := (List.pairwise_cons.1 h).2
    simp only [Memory.write]
    split
    · rename_i hak
      split
      · rename_i hb
        rw [hb]
        apply Memory.read_eq_unlisted
        intro c hc
        rcases List.mem_cons.1 hc with e | e
        · simp only [e]; omega
        · have := hkt c e
          simp only at this
          omega
      · simp [Memory.read]
    · split
      · rename_i _ e
        subst e
        split
        · rename_i hb
          rw [hb]
          apply Memory.read_eq_unlisted
          intro c hc
          have := hkt c hc
          simp only at this
          omega
        · simp [Memory.read]
      · rename_i h1 h2
        simp only [Memory.read, h2, if_false]
        exact ih htp

theorem Memory.writeAll_wf (t : List Byte) (m : Memory) (a : Nat) (h : Memory.wf m) :
    Memory.wf (Memory.writeAll m a t) := by
  induction t generalizing m a with
  | nil => exact h
  | cons b t ih => exact ih _ _ (Memory.write_wf m a b h)

/-- Writing consecutive bytes leaves every address outside them alone. -/
theorem Memory.read_writeAll_other (t : List Byte) (m : Memory) (a k : Nat) (h : k < a ∨ a + t.length ≤ k) :
    Memory.read (Memory.writeAll m a t) k = Memory.read m k := by
  induction t generalizing m a with
  | nil => rfl
  | cons b t ih =>
    simp only [List.length_cons] at h
    simp only [Memory.writeAll]
    rw [ih _ _ (by omega), Memory.read_write_other _ _ _ _ (by omega)]

/-- Consecutive bytes just written read as written, in a memory of canonical form. -/
theorem Memory.read_writeAll_same (t : List Byte) (m : Memory) (a i : Nat) (h : Memory.wf m) (hi : i < t.length) :
    Memory.read (Memory.writeAll m a t) (a + i) = t[i] := by
  induction t generalizing m a i with
  | nil => simp at hi
  | cons b t ih =>
    simp only [Memory.writeAll]
    cases i with
    | zero =>
      simp only [Nat.add_zero, List.getElem_cons_zero]
      rw [Memory.read_writeAll_other _ _ _ _ (by omega), Memory.read_write_same _ _ _ h.1]
    | succ i =>
      simp only [List.length_cons] at hi
      have e : a + (i + 1) = a + 1 + i := by omega
      rw [e, ih _ _ _ (Memory.write_wf m a b h) (by omega)]
      simp

theorem Memory.mem_writeAll (t : List Byte) (m : Memory) (a : Nat) (c : Host.Cell) (hc : c ∈ Memory.writeAll m a t) :
    c ∈ m ∨ (a ≤ c.1 ∧ c.1 < a + t.length) := by
  induction t generalizing m a with
  | nil => exact .inl hc
  | cons b t ih =>
    simp only [List.length_cons]
    rcases ih _ _ hc with h | h
    · rcases Memory.mem_write m a b c h with e | ⟨e, _⟩
      · exact .inl e
      · exact .inr (by simp [e])
    · exact .inr (by omega)

/-- The text of a buffer just filled is what was written. -/
theorem text_setText (s : State) (t : List Byte) (h : Memory.wf s.strbuf) : (s.setText t).text = t := by
  apply List.ext_getElem
  · simp [State.text, State.setText]
  · intro i h1 h2
    have := Memory.read_writeAll_same t s.strbuf 0 i h h2
    simp only [State.text, State.setText, List.getElem_map, List.getElem_range]
    rwa [Nat.zero_add] at this

end Sys2Proof.Machine
end

