-- ==== Sys2Proof/Laws/Operands.lean ====
section
/-! SUPPORT. What the floating-point readings give: the model's `f64` and `f32` denote the values the claims name, and a finite
value has the mantissa and exponent of DECD or DECF. -/

namespace Sys2Proof.Machine

/-- The value of a binary64 pattern as the claims write it is the one `f64` denotes. -/
theorem f64_rational (b : BitVec 64) : (f64 b).rational = f64Value b := by
  unfold f64 f64Value
  split
  · split <;> rfl
  · split <;> norm_num [Double.rational]

/-- The value of a binary32 pattern as the claims write it is the one `f32` denotes. -/
theorem f32_rational (b : Word) : (f32 b).rational = f32Value b := by
  unfold f32 f32Value
  split
  · split <;> rfl
  · split <;> norm_num [Double.rational]

theorem f64_of_max_exp (b : BitVec 64) (h : f64Exp b = 2047) :
    f64 b = if f64Frac b = 0 then .inf (f64Sign b) else .nan := by simp [f64, h]

theorem f32_of_max_exp (b : Word) (h : f32Exp b = 255) :
    f32 b = if f32Frac b = 0 then .inf (f32Sign b) else .nan := by simp [f32, h]

/-- A finite binary64 is its sign, DECD's mantissa and DECD's exponent. -/
theorem f64_of_finite (b : BitVec 64) (h : f64Exp b ≠ 2047) : f64 b = .finite (f64Sign b) (f64Mantissa b) (f64Exponent b) := by
  unfold f64 f64Mantissa f64Exponent
  rw [if_neg h]
  split <;> rfl

/-- A finite binary32 is its sign, DECF's mantissa and DECF's exponent. -/
theorem f32_of_finite (b : Word) (h : f32Exp b ≠ 255) : f32 b = .finite (f32Sign b) (f32Mantissa b) (f32Exponent b) := by
  unfold f32 f32Mantissa f32Exponent
  rw [if_neg h]
  split <;> rfl

end Sys2Proof.Machine
end

