-- ==== Sys2Proof/Laws/PerInstr.lean ====
section
/-! SUPPORT. The statements made command by command. -/

namespace Sys2Proof.Laws

/-- The match and mask a command's row has in the opcode map (R94). -/
def rowOf : Instr → Word × Word
  | .nop => (0x00000000, 0xFFFFFFFF)
  | .movI _ _ => (0x04000000, 0xFFF00FFF)
  | .movL _ _ => (0x06000000, 0xFFF00FFF)
  | .ldiI _ => (0x08000000, 0xFFF0FFFF)
  | .ldiL _ => (0x0A000000, 0xFFF0FFFF)
  | .ldpI _ => (0x0C000000, 0xFFF0FFFF)
  | .ldpL _ => (0x0E000000, 0xFFF0FFFF)
  | .wpushI _ => (0x10000000, 0xFFF0FFFF)
  | .ldnI _ => (0x14000000, 0xFFF0FFFF)
  | .ldnL _ => (0x16000000, 0xFFF0FFFF)
  | .cvtI _ _ => (0x18000000, 0xFFF00FFF)
  | .cvtL _ _ => (0x1A000000, 0xFFF00FFF)
  | .rdwI _ => (0x1C000000, 0xFFFF0FFF)
  | .rdwL _ => (0x1E000000, 0xFFFF0FFF)
  | .lenI _ => (0x20000000, 0xFFFF0FFF)
  | .tonatI _ => (0x24000000, 0xFFFF0FFF)
  | .tonatL _ => (0x26000000, 0xFFFF0FFF)
  | .addI _ _ _ => (0x40000000, 0xFFF000FF)
  | .addL _ _ _ => (0x42000000, 0xFFF000FF)
  | .subI _ _ _ => (0x44000000, 0xFFF000FF)
  | .subL _ _ _ => (0x46000000, 0xFFF000FF)
  | .negI _ _ => (0x48000000, 0xFFF00FFF)
  | .negL _ _ => (0x4A000000, 0xFFF00FFF)
  | .mulI _ _ _ => (0x4C000000, 0xFFF000FF)
  | .mulL _ _ _ => (0x4E000000, 0xFFF000FF)
  | .quotI _ _ _ => (0x50000000, 0xFFF000FF)
  | .quotL _ _ _ => (0x52000000, 0xFFF000FF)
  | .remI _ _ _ => (0x54000000, 0xFFF000FF)
  | .remL _ _ _ => (0x56000000, 0xFFF000FF)
  | .divI _ _ _ => (0x58000000, 0xFFF000FF)
  | .divL _ _ _ => (0x5A000000, 0xFFF000FF)
  | .modI _ _ _ => (0x5C000000, 0xFFF000FF)
  | .modL _ _ _ => (0x5E000000, 0xFFF000FF)
  | .cmpI _ _ => (0x60000000, 0xFFFF00FF)
  | .cmpL _ _ => (0x62000000, 0xFFFF00FF)
  | .sgnI _ => (0x64000000, 0xFFFF0FFF)
  | .sgnL _ => (0x66000000, 0xFFFF0FFF)
  | .andI _ _ _ => (0x68000000, 0xFFF000FF)
  | .andL _ _ _ => (0x6A000000, 0xFFF000FF)
  | .orI _ _ _ => (0x6C000000, 0xFFF000FF)
  | .orL _ _ _ => (0x6E000000, 0xFFF000FF)
  | .xorI _ _ _ => (0x70000000, 0xFFF000FF)
  | .xorL _ _ _ => (0x72000000, 0xFFF000FF)
  | .notI _ _ => (0x74000000, 0xFFF00FFF)
  | .notL _ _ => (0x76000000, 0xFFF00FFF)
  | .shlI _ _ _ => (0x78000000, 0xFFF00000)
  | .shlL _ _ _ => (0x7A000000, 0xFFF00000)
  | .shrI _ _ _ => (0x7C000000, 0xFFF00000)
  | .shrL _ _ _ => (0x7E000000, 0xFFF00000)
  | .sclr => (0x80000000, 0xFFFFFFFF)
  | .sput => (0x84000000, 0xFFFFFFFF)
  | .sget => (0x88000000, 0xFFFFFFFF)
  | .parseI _ _ => (0x8C000000, 0xFFF0FF00)
  | .tostrI _ => (0x90000000, 0xFFFF0FFF)
  | .tostrL _ => (0x92000000, 0xFFFF0FFF)
  | .decd _ => (0xA0000000, 0xFFF0FFFF)
  | .decf _ => (0xA4000000, 0xFFF0FFFF)

theorem encodeFields_and (o mo : BitVec 7) (mz : BitVec 5) (d a b md ma mb : Reg) (i mi : BitVec 8) :
    encodeFields o d a b i &&& (mo ++ mz ++ md ++ ma ++ mb ++ mi) =
      (o &&& mo) ++ (0#5 &&& mz) ++ (d &&& md) ++ (a &&& ma) ++ (b &&& mb) ++ (i &&& mi) := by
  unfold encodeFields
  erw [BitVec.and_append, BitVec.and_append, BitVec.and_append, BitVec.and_append, BitVec.and_append]

theorem encodeShift_and (o mo : BitVec 7) (mz : BitVec 5) (d a md ma : Reg) (sh : Nat) (mi : BitVec 12) :
    encodeShift o d a sh &&& (mo ++ mz ++ md ++ ma ++ mi) =
      (o &&& mo) ++ (0#5 &&& mz) ++ (d &&& md) ++ (a &&& ma) ++ (BitVec.ofNat 12 sh &&& mi) := by
  unfold encodeShift
  erw [BitVec.and_append, BitVec.and_append, BitVec.and_append, BitVec.and_append]

theorem opcT_and (o : BitVec 7) : o &&& 0x7F#7 = o := by
  have : (0x7F#7 : BitVec 7) = BitVec.allOnes 7 := by decide
  rw [this, BitVec.and_allOnes]

theorem and_maskNone (o : BitVec 7) :
    encodeFields o 0 0 0 0 &&& (0xFFFFFFFF : Word) = encodeFields o 0 0 0 0 := by
  have e : (0xFFFFFFFF : Word) = 0x7F#7 ++ 0x1F#5 ++ 0xF#4 ++ 0xF#4 ++ 0xF#4 ++ 0xFF#8 := by decide
  rw [e, encodeFields_and, opcT_and]
  simp [encodeFields]

theorem and_maskRd (o : BitVec 7) (d : Reg) :
    encodeFields o d 0 0 0 &&& (0xFFF0FFFF : Word) = encodeFields o 0 0 0 0 := by
  have e : (0xFFF0FFFF : Word) = 0x7F#7 ++ 0x1F#5 ++ 0x0#4 ++ 0xF#4 ++ 0xF#4 ++ 0xFF#8 := by decide
  rw [e, encodeFields_and, opcT_and]
  simp [encodeFields]

theorem and_maskRa (o : BitVec 7) (a : Reg) :
    encodeFields o 0 a 0 0 &&& (0xFFFF0FFF : Word) = encodeFields o 0 0 0 0 := by
  have e : (0xFFFF0FFF : Word) = 0x7F#7 ++ 0x1F#5 ++ 0xF#4 ++ 0x0#4 ++ 0xF#4 ++ 0xFF#8 := by decide
  rw [e, encodeFields_and, opcT_and]
  simp [encodeFields]

theorem and_maskRdRa (o : BitVec 7) (d a : Reg) :
    encodeFields o d a 0 0 &&& (0xFFF00FFF : Word) = encodeFields o 0 0 0 0 := by
  have e : (0xFFF00FFF : Word) = 0x7F#7 ++ 0x1F#5 ++ 0x0#4 ++ 0x0#4 ++ 0xF#4 ++ 0xFF#8 := by decide
  rw [e, encodeFields_and, opcT_and]
  simp [encodeFields]

theorem and_maskRaRb (o : BitVec 7) (a b : Reg) :
    encodeFields o 0 a b 0 &&& (0xFFFF00FF : Word) = encodeFields o 0 0 0 0 := by
  have e : (0xFFFF00FF : Word) = 0x7F#7 ++ 0x1F#5 ++ 0xF#4 ++ 0x0#4 ++ 0x0#4 ++ 0xFF#8 := by decide
  rw [e, encodeFields_and, opcT_and]
  simp [encodeFields]

theorem and_maskRdRaRb (o : BitVec 7) (d a b : Reg) :
    encodeFields o d a b 0 &&& (0xFFF000FF : Word) = encodeFields o 0 0 0 0 := by
  have e : (0xFFF000FF : Word) = 0x7F#7 ++ 0x1F#5 ++ 0x0#4 ++ 0x0#4 ++ 0x0#4 ++ 0xFF#8 := by decide
  rw [e, encodeFields_and, opcT_and]
  simp [encodeFields]

theorem and_maskRdImm (o : BitVec 7) (d : Reg) (i : BitVec 8) :
    encodeFields o d 0 0 i &&& (0xFFF0FF00 : Word) = encodeFields o 0 0 0 0 := by
  have e : (0xFFF0FF00 : Word) = 0x7F#7 ++ 0x1F#5 ++ 0x0#4 ++ 0xF#4 ++ 0xF#4 ++ 0x00#8 := by decide
  rw [e, encodeFields_and, opcT_and]
  simp [encodeFields]

theorem and_maskRdRaSh (o : BitVec 7) (d a : Reg) (sh : Nat) :
    encodeShift o d a sh &&& (0xFFF00000 : Word) = encodeFields o 0 0 0 0 := by
  have e : (0xFFF00000 : Word) = 0x7F#7 ++ 0x1F#5 ++ 0x0#4 ++ 0x0#4 ++ 0x000#12 := by decide
  rw [e, encodeShift_and, opcT_and]
  have e1 : encodeFields o 0 0 0 0 = o ++ 0#5 ++ 0#4 ++ 0#4 ++ 0#12 := by
    unfold encodeFields
    revert o
    decide
  rw [e1]
  simp

namespace RowOfEncoding

/-- The word of a well-formed command selects the command's row: `word & mask == match` (R91). -/
def Statement (i : Instr) : Prop := i.wf = true → encode i &&& (rowOf i).2 = (rowOf i).1

theorem nop : Statement .nop := fun _ => (and_maskNone 0x00#7).trans (show encodeFields 0x00 0 0 0 0 = 0x00000000 by decide)
theorem movI (d a : Reg) : Statement (.movI d a) := fun _ => (and_maskRdRa 0x02#7 d a).trans (show encodeFields 0x02 0 0 0 0 = 0x04000000 by decide)
theorem movL (d a : Reg) : Statement (.movL d a) := fun _ => (and_maskRdRa 0x03#7 d a).trans (show encodeFields 0x03 0 0 0 0 = 0x06000000 by decide)
theorem ldiI (d : Reg) : Statement (.ldiI d) := fun _ => (and_maskRd 0x04#7 d).trans (show encodeFields 0x04 0 0 0 0 = 0x08000000 by decide)
theorem ldiL (d : Reg) : Statement (.ldiL d) := fun _ => (and_maskRd 0x05#7 d).trans (show encodeFields 0x05 0 0 0 0 = 0x0A000000 by decide)
theorem ldpI (d : Reg) : Statement (.ldpI d) := fun _ => (and_maskRd 0x06#7 d).trans (show encodeFields 0x06 0 0 0 0 = 0x0C000000 by decide)
theorem ldpL (d : Reg) : Statement (.ldpL d) := fun _ => (and_maskRd 0x07#7 d).trans (show encodeFields 0x07 0 0 0 0 = 0x0E000000 by decide)
theorem wpushI (d : Reg) : Statement (.wpushI d) := fun _ => (and_maskRd 0x08#7 d).trans (show encodeFields 0x08 0 0 0 0 = 0x10000000 by decide)
theorem ldnI (d : Reg) : Statement (.ldnI d) := fun _ => (and_maskRd 0x0A#7 d).trans (show encodeFields 0x0A 0 0 0 0 = 0x14000000 by decide)
theorem ldnL (d : Reg) : Statement (.ldnL d) := fun _ => (and_maskRd 0x0B#7 d).trans (show encodeFields 0x0B 0 0 0 0 = 0x16000000 by decide)
theorem cvtI (d a : Reg) : Statement (.cvtI d a) := fun _ => (and_maskRdRa 0x0C#7 d a).trans (show encodeFields 0x0C 0 0 0 0 = 0x18000000 by decide)
theorem cvtL (d a : Reg) : Statement (.cvtL d a) := fun _ => (and_maskRdRa 0x0D#7 d a).trans (show encodeFields 0x0D 0 0 0 0 = 0x1A000000 by decide)
theorem rdwI (a : Reg) : Statement (.rdwI a) := fun _ => (and_maskRa 0x0E#7 a).trans (show encodeFields 0x0E 0 0 0 0 = 0x1C000000 by decide)
theorem rdwL (a : Reg) : Statement (.rdwL a) := fun _ => (and_maskRa 0x0F#7 a).trans (show encodeFields 0x0F 0 0 0 0 = 0x1E000000 by decide)
theorem lenI (a : Reg) : Statement (.lenI a) := fun _ => (and_maskRa 0x10#7 a).trans (show encodeFields 0x10 0 0 0 0 = 0x20000000 by decide)
theorem tonatI (a : Reg) : Statement (.tonatI a) := fun _ => (and_maskRa 0x12#7 a).trans (show encodeFields 0x12 0 0 0 0 = 0x24000000 by decide)
theorem tonatL (a : Reg) : Statement (.tonatL a) := fun _ => (and_maskRa 0x13#7 a).trans (show encodeFields 0x13 0 0 0 0 = 0x26000000 by decide)
theorem addI (d a b : Reg) : Statement (.addI d a b) := fun _ => (and_maskRdRaRb 0x20#7 d a b).trans (show encodeFields 0x20 0 0 0 0 = 0x40000000 by decide)
theorem addL (d a b : Reg) : Statement (.addL d a b) := fun _ => (and_maskRdRaRb 0x21#7 d a b).trans (show encodeFields 0x21 0 0 0 0 = 0x42000000 by decide)
theorem subI (d a b : Reg) : Statement (.subI d a b) := fun _ => (and_maskRdRaRb 0x22#7 d a b).trans (show encodeFields 0x22 0 0 0 0 = 0x44000000 by decide)
theorem subL (d a b : Reg) : Statement (.subL d a b) := fun _ => (and_maskRdRaRb 0x23#7 d a b).trans (show encodeFields 0x23 0 0 0 0 = 0x46000000 by decide)
theorem negI (d a : Reg) : Statement (.negI d a) := fun _ => (and_maskRdRa 0x24#7 d a).trans (show encodeFields 0x24 0 0 0 0 = 0x48000000 by decide)
theorem negL (d a : Reg) : Statement (.negL d a) := fun _ => (and_maskRdRa 0x25#7 d a).trans (show encodeFields 0x25 0 0 0 0 = 0x4A000000 by decide)
theorem mulI (d a b : Reg) : Statement (.mulI d a b) := fun _ => (and_maskRdRaRb 0x26#7 d a b).trans (show encodeFields 0x26 0 0 0 0 = 0x4C000000 by decide)
theorem mulL (d a b : Reg) : Statement (.mulL d a b) := fun _ => (and_maskRdRaRb 0x27#7 d a b).trans (show encodeFields 0x27 0 0 0 0 = 0x4E000000 by decide)
theorem quotI (d a b : Reg) : Statement (.quotI d a b) := fun _ => (and_maskRdRaRb 0x28#7 d a b).trans (show encodeFields 0x28 0 0 0 0 = 0x50000000 by decide)
theorem quotL (d a b : Reg) : Statement (.quotL d a b) := fun _ => (and_maskRdRaRb 0x29#7 d a b).trans (show encodeFields 0x29 0 0 0 0 = 0x52000000 by decide)
theorem remI (d a b : Reg) : Statement (.remI d a b) := fun _ => (and_maskRdRaRb 0x2A#7 d a b).trans (show encodeFields 0x2A 0 0 0 0 = 0x54000000 by decide)
theorem remL (d a b : Reg) : Statement (.remL d a b) := fun _ => (and_maskRdRaRb 0x2B#7 d a b).trans (show encodeFields 0x2B 0 0 0 0 = 0x56000000 by decide)
theorem divI (d a b : Reg) : Statement (.divI d a b) := fun _ => (and_maskRdRaRb 0x2C#7 d a b).trans (show encodeFields 0x2C 0 0 0 0 = 0x58000000 by decide)
theorem divL (d a b : Reg) : Statement (.divL d a b) := fun _ => (and_maskRdRaRb 0x2D#7 d a b).trans (show encodeFields 0x2D 0 0 0 0 = 0x5A000000 by decide)
theorem modI (d a b : Reg) : Statement (.modI d a b) := fun _ => (and_maskRdRaRb 0x2E#7 d a b).trans (show encodeFields 0x2E 0 0 0 0 = 0x5C000000 by decide)
theorem modL (d a b : Reg) : Statement (.modL d a b) := fun _ => (and_maskRdRaRb 0x2F#7 d a b).trans (show encodeFields 0x2F 0 0 0 0 = 0x5E000000 by decide)
theorem cmpI (a b : Reg) : Statement (.cmpI a b) := fun _ => (and_maskRaRb 0x30#7 a b).trans (show encodeFields 0x30 0 0 0 0 = 0x60000000 by decide)
theorem cmpL (a b : Reg) : Statement (.cmpL a b) := fun _ => (and_maskRaRb 0x31#7 a b).trans (show encodeFields 0x31 0 0 0 0 = 0x62000000 by decide)
theorem sgnI (a : Reg) : Statement (.sgnI a) := fun _ => (and_maskRa 0x32#7 a).trans (show encodeFields 0x32 0 0 0 0 = 0x64000000 by decide)
theorem sgnL (a : Reg) : Statement (.sgnL a) := fun _ => (and_maskRa 0x33#7 a).trans (show encodeFields 0x33 0 0 0 0 = 0x66000000 by decide)
theorem andI (d a b : Reg) : Statement (.andI d a b) := fun _ => (and_maskRdRaRb 0x34#7 d a b).trans (show encodeFields 0x34 0 0 0 0 = 0x68000000 by decide)
theorem andL (d a b : Reg) : Statement (.andL d a b) := fun _ => (and_maskRdRaRb 0x35#7 d a b).trans (show encodeFields 0x35 0 0 0 0 = 0x6A000000 by decide)
theorem orI (d a b : Reg) : Statement (.orI d a b) := fun _ => (and_maskRdRaRb 0x36#7 d a b).trans (show encodeFields 0x36 0 0 0 0 = 0x6C000000 by decide)
theorem orL (d a b : Reg) : Statement (.orL d a b) := fun _ => (and_maskRdRaRb 0x37#7 d a b).trans (show encodeFields 0x37 0 0 0 0 = 0x6E000000 by decide)
theorem xorI (d a b : Reg) : Statement (.xorI d a b) := fun _ => (and_maskRdRaRb 0x38#7 d a b).trans (show encodeFields 0x38 0 0 0 0 = 0x70000000 by decide)
theorem xorL (d a b : Reg) : Statement (.xorL d a b) := fun _ => (and_maskRdRaRb 0x39#7 d a b).trans (show encodeFields 0x39 0 0 0 0 = 0x72000000 by decide)
theorem notI (d a : Reg) : Statement (.notI d a) := fun _ => (and_maskRdRa 0x3A#7 d a).trans (show encodeFields 0x3A 0 0 0 0 = 0x74000000 by decide)
theorem notL (d a : Reg) : Statement (.notL d a) := fun _ => (and_maskRdRa 0x3B#7 d a).trans (show encodeFields 0x3B 0 0 0 0 = 0x76000000 by decide)
theorem shlI (d a : Reg) (sh : Nat) : Statement (.shlI d a sh) := fun _ => (and_maskRdRaSh 0x3C#7 d a sh).trans (show encodeFields 0x3C 0 0 0 0 = 0x78000000 by decide)
theorem shlL (d a : Reg) (sh : Nat) : Statement (.shlL d a sh) := fun _ => (and_maskRdRaSh 0x3D#7 d a sh).trans (show encodeFields 0x3D 0 0 0 0 = 0x7A000000 by decide)
theorem shrI (d a : Reg) (sh : Nat) : Statement (.shrI d a sh) := fun _ => (and_maskRdRaSh 0x3E#7 d a sh).trans (show encodeFields 0x3E 0 0 0 0 = 0x7C000000 by decide)
theorem shrL (d a : Reg) (sh : Nat) : Statement (.shrL d a sh) := fun _ => (and_maskRdRaSh 0x3F#7 d a sh).trans (show encodeFields 0x3F 0 0 0 0 = 0x7E000000 by decide)
theorem sclr : Statement .sclr := fun _ => (and_maskNone 0x40#7).trans (show encodeFields 0x40 0 0 0 0 = 0x80000000 by decide)
theorem sput : Statement .sput := fun _ => (and_maskNone 0x42#7).trans (show encodeFields 0x42 0 0 0 0 = 0x84000000 by decide)
theorem sget : Statement .sget := fun _ => (and_maskNone 0x44#7).trans (show encodeFields 0x44 0 0 0 0 = 0x88000000 by decide)
theorem parseI (d : Reg) (radix : Nat) : Statement (.parseI d radix) := fun _ => (and_maskRdImm 0x46#7 d (BitVec.ofNat 8 radix)).trans (show encodeFields 0x46 0 0 0 0 = 0x8C000000 by decide)
theorem tostrI (a : Reg) : Statement (.tostrI a) := fun _ => (and_maskRa 0x48#7 a).trans (show encodeFields 0x48 0 0 0 0 = 0x90000000 by decide)
theorem tostrL (a : Reg) : Statement (.tostrL a) := fun _ => (and_maskRa 0x49#7 a).trans (show encodeFields 0x49 0 0 0 0 = 0x92000000 by decide)
theorem decd (d : Reg) : Statement (.decd d) := fun _ => (and_maskRd 0x50#7 d).trans (show encodeFields 0x50 0 0 0 0 = 0xA0000000 by decide)
theorem decf (d : Reg) : Statement (.decf d) := fun _ => (and_maskRd 0x52#7 d).trans (show encodeFields 0x52 0 0 0 0 = 0xA4000000 by decide)

end RowOfEncoding

end Sys2Proof.Laws
end

