-- ==== Sys2Proof/Tests/Slice0.lean ====
section
/-! SUPPORT. The model's own tests: the WellFormed smoke, decoding of words written out from the spec's encodings, one step of
each command on the vectors of spec/95_test_vectors.md, the host protocol, and a witness for the hypotheses of each statement. -/

namespace Sys2Proof.Tests

open Sys2Proof Sys2Proof.Machine

/-! ### WellFormed: an ill-formed term for each check, refused, beside the bound it still takes -/

theorem test_wf_shamt_refused : (Instr.shlI 2 1 4096).wf = false ∧ (Instr.shlL 2 1 4096).wf = false ∧
    (Instr.shrI 2 1 4096).wf = false ∧ (Instr.shrL 2 1 4096).wf = false := by decide

theorem test_wf_imm8_refused : (Instr.parseI 1 256).wf = false := by decide

theorem test_wf_bounds_taken : (Instr.shlI 2 1 4095).wf = true ∧ (Instr.parseI 1 255).wf = true := by decide

/-! ### Decoding: OPC 31:26, T 25, Z 24:20, RD 19:16, RA 15:12, RB 11:8, IMM8 7:0, SHAMT 11:0 (R90, R94) -/

theorem test_decode_moves :
    decode 0x00000000 = .ok .nop ∧ decode 0x04021000 = .ok (.movI 2 1) ∧ decode 0x06021000 = .ok (.movL 2 1) ∧
    decode 0x08010000 = .ok (.ldiI 1) ∧ decode 0x0A010000 = .ok (.ldiL 1) ∧ decode 0x0C010000 = .ok (.ldpI 1) ∧
    decode 0x0E010000 = .ok (.ldpL 1) ∧ decode 0x10010000 = .ok (.wpushI 1) ∧ decode 0x14010000 = .ok (.ldnI 1) ∧
    decode 0x16010000 = .ok (.ldnL 1) ∧ decode 0x18021000 = .ok (.cvtI 2 1) ∧ decode 0x1A021000 = .ok (.cvtL 2 1) := by
  decide

theorem test_decode_readers :
    decode 0x1C001000 = .ok (.rdwI 1) ∧ decode 0x1E001000 = .ok (.rdwL 1) ∧ decode 0x20001000 = .ok (.lenI 1) ∧
    decode 0x24001000 = .ok (.tonatI 1) ∧ decode 0x26001000 = .ok (.tonatL 1) := by decide

theorem test_decode_arithmetic :
    decode 0x40031200 = .ok (.addI 3 1 2) ∧ decode 0x42031200 = .ok (.addL 3 1 2) ∧ decode 0x44031200 = .ok (.subI 3 1 2) ∧
    decode 0x46031200 = .ok (.subL 3 1 2) ∧ decode 0x48021000 = .ok (.negI 2 1) ∧ decode 0x4A021000 = .ok (.negL 2 1) ∧
    decode 0x4C031200 = .ok (.mulI 3 1 2) ∧ decode 0x4E031200 = .ok (.mulL 3 1 2) := by decide

theorem test_decode_division :
    decode 0x50031200 = .ok (.quotI 3 1 2) ∧ decode 0x52031200 = .ok (.quotL 3 1 2) ∧ decode 0x54031200 = .ok (.remI 3 1 2) ∧
    decode 0x56031200 = .ok (.remL 3 1 2) ∧ decode 0x58031200 = .ok (.divI 3 1 2) ∧ decode 0x5A031200 = .ok (.divL 3 1 2) ∧
    decode 0x5C031200 = .ok (.modI 3 1 2) ∧ decode 0x5E031200 = .ok (.modL 3 1 2) := by decide

theorem test_decode_compare :
    decode 0x60001200 = .ok (.cmpI 1 2) ∧ decode 0x62001200 = .ok (.cmpL 1 2) ∧ decode 0x64001000 = .ok (.sgnI 1) ∧
    decode 0x66001000 = .ok (.sgnL 1) := by decide

theorem test_decode_bitwise :
    decode 0x68031200 = .ok (.andI 3 1 2) ∧ decode 0x6A031200 = .ok (.andL 3 1 2) ∧ decode 0x6C031200 = .ok (.orI 3 1 2) ∧
    decode 0x6E031200 = .ok (.orL 3 1 2) ∧ decode 0x70031200 = .ok (.xorI 3 1 2) ∧ decode 0x72031200 = .ok (.xorL 3 1 2) ∧
    decode 0x74021000 = .ok (.notI 2 1) ∧ decode 0x76021000 = .ok (.notL 2 1) := by decide

theorem test_decode_shift :
    decode 0x78021028 = .ok (.shlI 2 1 40) ∧ decode 0x7A02103F = .ok (.shlL 2 1 63) ∧ decode 0x7C021FFF = .ok (.shrI 2 1 4095) ∧
    decode 0x7E021064 = .ok (.shrL 2 1 100) := by decide

theorem test_decode_text :
    decode 0x80000000 = .ok .sclr ∧ decode 0x84000000 = .ok .sput ∧ decode 0x88000000 = .ok .sget ∧
    decode 0x8C01000A = .ok (.parseI 1 10) ∧ decode 0x90001000 = .ok (.tostrI 1) ∧ decode 0x92001000 = .ok (.tostrL 1) := by
  decide

theorem test_decode_decomposition : decode 0xA0010000 = .ok (.decd 1) ∧ decode 0xA4010000 = .ok (.decf 1) := by decide

/-- Every register field at its highest number: RD = x15, RA = x14, RB = x13. -/
theorem test_decode_field_places : decode 0x400FED00 = .ok (.addI 15 14 13) ∧ decode 0x600FED00 = .error .nonzeroField := by
  decide

/-- V60.1 to V60.5 and V60.15: words that match no row. -/
theorem test_decode_illegal :
    decode 0x28000000 = .error .reservedOpcode ∧ decode 0x00000001 = .error .nonzeroField ∧
    decode 0x01000000 = .error .nonzeroField ∧ decode 0x80100000 = .error .nonzeroField ∧
    decode 0x2A000000 = .error .reservedOpcode ∧ decode 0x22000000 = .error .typeBit := by decide

/-- R73: the bytes of a word, the lowest address first. -/
theorem test_decode_bytes : decodeBytes [0x00, 0x12, 0x03, 0x40, 0xFF] = .ok (.addI 3 1 2, [0xFF]) ∧
    decodeBytes [0x00, 0x12, 0x03] = .error .truncated := by decide

/-! ### One step of a command -/

/-- The state after the step that runs the table word `w`. -/
def ran (s : State) (w : Nat) : Option State :=
  match step (s.withFetchWord 32 w) with
  | .next t => some t
  | .fault _ => none
  | .refused _ => none

/-- What `f` sees in the state after that step. -/
def seen {α : Type} (s : State) (w : Nat) (f : State → α) : Option α := (ran s w).map f

/-- Reset with `x1` written. -/
def one (v : Value) : State := State.reset.setReg 1 v

/-- Reset with `x1` and `x2` written. -/
def two (v u : Value) : State := (one v).setReg 2 u

/-- `s` with the argument registers written. -/
def withArgs (lo hi : Word) (s : State) : State := { s with argLo := lo, argHi := hi }

/-! ### Transfers and conversions (2.1 of spec/95_test_vectors.md) -/

/-- V40.1 -/
theorem test_nop_1 : seen State.reset 0x00000000 (fun t => t) = some (State.reset) := by decide

/-- V40.2 -/
theorem test_movI_1 : seen (one (.int [0xFFFFFFFB] 0xFFFFFFFF)) 0x04021000 (fun t => t.reg 2) = some (.int
    [0xFFFFFFFB] 0xFFFFFFFF) := by decide

/-- V40.4 -/
theorem test_movI_2 : seen (one (.long 0x00000007 0)) 0x04021000 (fun t => (t.err, t.errcode, t.errcmd)) = some (true,
    3, 0x04021000) := by decide

/-- V40.3 -/
theorem test_movL_1 : seen (one (.long 0 0x80000000)) 0x06021000 (fun t => t.reg 2) = some (.long 0 0x80000000) := by
    decide

/-- V40.6 -/
theorem test_ldiI_1 : seen (withArgs 0x80000000 0 State.reset) 0x08010000 (fun t => t.reg 1) = some (.int [0x80000000]
    0xFFFFFFFF) := by decide

/-- V40.5 -/
theorem test_ldiI_2 : seen (withArgs 0xFFFFFFFF 0 State.reset) 0x08010000 (fun t => t.reg 1) = some (.int []
    0xFFFFFFFF) := by decide

/-- V40.7 -/
theorem test_ldiL_1 : seen (withArgs 0xFFFFFFFE 0 State.reset) 0x0A010000 (fun t => t.reg 1) = some (.long 0xFFFFFFFE
    0xFFFFFFFF) := by decide

/-- V40.8 -/
theorem test_ldpI_1 : seen (withArgs 0 0x80000000 State.reset) 0x0C010000 (fun t => t.reg 1) = some (.int [0,
    0x80000000] 0xFFFFFFFF) := by decide

/-- V40.9 -/
theorem test_ldpI_2 : seen (withArgs 0xFFFFFFFF 0x7FFFFFFF State.reset) 0x0C010000 (fun t => t.reg 1) = some (.int
    [0xFFFFFFFF, 0x7FFFFFFF] 0) := by decide

/-- V40.10 -/
theorem test_ldpL_1 : seen (withArgs 0x89ABCDEF 0x01234567 State.reset) 0x0E010000 (fun t => t.reg 1) = some (.long
    0x89ABCDEF 0x01234567) := by decide

/-- V40.12 -/
theorem test_wpushI_1 : seen (withArgs 0 0 (one (.int [] 0xFFFFFFFF))) 0x10010000 (fun t => t.reg 1) = some (.int [0]
    0xFFFFFFFF) := by decide

/-- V40.14 -/
theorem test_wpushI_2 : seen (withArgs 0x00000005 0 State.reset) 0x10010000 (fun t => (t.err, t.errcode, t.errcmd)) =
    some (true, 2, 0x10010000) := by decide

/-- V40.16 -/
theorem test_ldnI_1 : seen (withArgs 0 0xC0040000 State.reset) 0x14010000 (fun t => t.reg 1) = some (.int [0xFFFFFFFE]
    0xFFFFFFFF) := by decide

/-- V40.19 -/
theorem test_ldnI_2 : seen (withArgs 0x78B58C40 0x4415AF1D State.reset) 0x14010000 (fun t => t.reg 1) = some (.int
    [0x63100000, 0x6BC75E2D, 0x00000005] 0) := by decide

/-- V40.20 -/
theorem test_ldnL_1 : seen (withArgs 0x78B58C40 0x4415AF1D State.reset) 0x16010000 (fun t => t.reg 1) = some (.long
    0xFFFFFFFF 0x7FFFFFFF) := by decide

/-- V40.23 -/
theorem test_ldnL_2 : seen (withArgs 0 0xC3E00000 State.reset) 0x16010000 (fun t => t.reg 1) = some (.long 0
    0x80000000) := by decide

/-- V40.24 -/
theorem test_cvtI_1 : seen (one (.int [0, 0, 0x00000001] 0)) 0x18021000 (fun t => t.reg 2) = some (.long 0 0) := by
    decide

/-- V40.25 -/
theorem test_cvtI_2 : seen (one (.int [0, 0x80000000] 0)) 0x18021000 (fun t => t.reg 2) = some (.long 0 0x80000000) :=
    by decide

/-- V40.27 -/
theorem test_cvtL_1 : seen (one (.long 0 0x80000000)) 0x1A021000 (fun t => t.reg 2) = some (.int [0, 0x80000000]
    0xFFFFFFFF) := by decide

/-- V40.28 -/
theorem test_cvtL_2 : seen (one (.int [0xFFFFFFFB] 0xFFFFFFFF)) 0x1A021000 (fun t => (t.err, t.errcode, t.errcmd)) =
    some (true, 3, 0x1A021000) := by decide

/-! ### Reading a value out (2.1) -/

/-- V40.30 -/
theorem test_rdwI_1 : seen (withArgs 0x00000001 0 (one (.int [0xFFFFFFF5, 0xFFFFFFFE] 0xFFFFFFFF))) 0x1C001000 (fun t
    => (t.resLo, t.resHi)) = some (0xFFFFFFFE, 0) := by decide

/-- V40.32 -/
theorem test_rdwI_2 : seen (withArgs 0xFFFFFFFF 0 (one (.int [0xFFFFFFF5, 0xFFFFFFFE] 0xFFFFFFFF))) 0x1C001000 (fun t
    => (t.resLo, t.resHi)) = some (0, 0) := by decide

/-- V40.34 -/
theorem test_rdwL_1 : seen (withArgs 0x00000002 0 (one (.long 0 0x80000000))) 0x1E001000 (fun t => (t.resLo, t.resHi))
    = some (0xFFFFFFFF, 0) := by decide

/-- V40.37 -/
theorem test_lenI_1 : seen (one (.int [] 0xFFFFFFFF)) 0x20001000 (fun t => (t.resLo, t.resHi)) = some (0, 0xFFFFFFFF)
    := by decide

/-- V40.39 -/
theorem test_lenI_2 : seen (one (.int [0, 0x80000000] 0xFFFFFFFF)) 0x20001000 (fun t => (t.resLo, t.resHi)) = some
    (0x00000002, 0xFFFFFFFF) := by decide

/-- V40.41 -/
theorem test_tonatI_1 : seen (one (.int [0x00000001, 0x00200000] 0)) 0x24001000 (fun t => (t.resLo, t.resHi)) = some
    (0, 0x43400000) := by decide +kernel

/-- V40.42 -/
theorem test_tonatI_2 : seen (one (.int [0x00000003, 0x00200000] 0)) 0x24001000 (fun t => (t.resLo, t.resHi)) = some
    (0x00000002, 0x43400000) := by decide +kernel

/-- V40.48 -/
theorem test_tonatL_1 : seen (one (.long 0xFFFFFFFF 0x7FFFFFFF)) 0x26001000 (fun t => (t.resLo, t.resHi)) = some (0,
    0x43E00000) := by decide +kernel

/-! ### Add, subtract, negate, multiply (2.2) -/

/-- V41.4 -/
theorem test_addI_1 : seen (two (.int [0] 0xFFFFFFFF) (.int [] 0xFFFFFFFF)) 0x40031200 (fun t => t.reg 3) = some (.int
    [0xFFFFFFFF, 0xFFFFFFFE] 0xFFFFFFFF) := by decide

/-- V41.7 -/
theorem test_addI_2 : seen (one (.int [0, 0, 0, 0, 0, 0, 0, 0x80000000] 0)) 0x40021100 (fun t => (t.err, t.errcode,
    t.errcmd)) = some (true, 9, 0x40021100) := by decide

/-- V41.9 -/
theorem test_addL_1 : seen (two (.long 0xFFFFFFFF 0x7FFFFFFF) (.long 0x00000001 0)) 0x42031200 (fun t => t.reg 3) =
    some (.long 0 0x80000000) := by decide

/-- V41.15 -/
theorem test_subI_1 : seen (two (.int [0, 0, 0, 0, 0, 0, 0, 0x80000000] 0xFFFFFFFF) (.int [0, 0, 0, 0, 0, 0, 0,
    0x80000000] 0)) 0x44031200 (fun t => t.reg 3) = some (.int [0, 0, 0, 0, 0, 0, 0, 0] 0xFFFFFFFF) := by decide

/-- V41.16 -/
theorem test_subI_2 : seen (two (.int [0, 0, 0, 0, 0, 0, 0, 0x80000000] 0xFFFFFFFF) (.int [0x00000001, 0, 0, 0, 0, 0,
    0, 0x80000000] 0)) 0x44031200 (fun t => (t.err, t.errcode, t.errcmd)) = some (true, 9, 0x44031200) := by decide

/-- V41.17 -/
theorem test_subL_1 : seen (two (.long 0 0x80000000) (.long 0x00000001 0)) 0x46031200 (fun t => t.reg 3) = some (.long
    0xFFFFFFFF 0x7FFFFFFF) := by decide

/-- V41.20 -/
theorem test_negI_1 : seen (one (.int [0x80000000] 0xFFFFFFFF)) 0x48021000 (fun t => t.reg 2) = some (.int
    [0x80000000] 0) := by decide

/-- V41.22 -/
theorem test_negI_2 : seen (one (.int [0, 0, 0, 0, 0, 0, 0, 0] 0xFFFFFFFF)) 0x48021000 (fun t => (t.err, t.errcode,
    t.errcmd)) = some (true, 9, 0x48021000) := by decide

/-- V41.24 -/
theorem test_negL_1 : seen (one (.long 0 0x80000000)) 0x4A021000 (fun t => t.reg 2) = some (.long 0 0x80000000) := by
    decide

/-- V41.26 -/
theorem test_mulI_1 : seen (one (.int [0xFFFFFFFF] 0)) 0x4C021100 (fun t => t.reg 2) = some (.int [0x00000001,
    0xFFFFFFFE] 0) := by decide

/-- V41.30 -/
theorem test_mulI_2 : seen (two (.int [0, 0, 0, 0, 0x00000001] 0) (.int [0, 0, 0, 0, 0x00000001] 0)) 0x4C031200 (fun t
    => (t.err, t.errcode, t.errcmd)) = some (true, 9, 0x4C031200) := by decide

/-- V41.33 -/
theorem test_mulL_1 : seen (two (.long 0xFFFFFFFF 0x7FFFFFFF) (.long 0x00000002 0)) 0x4E031200 (fun t => t.reg 3) =
    some (.long 0xFFFFFFFE 0xFFFFFFFF) := by decide

/-! ### Division (2.3) -/

/-- V42.1 -/
theorem test_quotI_1 : seen (two (.int [0xFFFFFFF9] 0xFFFFFFFF) (.int [0x00000002] 0)) 0x50031200 (fun t => t.reg 3) =
    some (.int [0xFFFFFFFD] 0xFFFFFFFF) := by decide

/-- V42.7 -/
theorem test_quotI_2 : seen (two (.int [0, 0, 0, 0, 0, 0, 0, 0] 0xFFFFFFFF) (.int [] 0xFFFFFFFF)) 0x50031200 (fun t =>
    (t.err, t.errcode, t.errcmd)) = some (true, 9, 0x50031200) := by decide

/-- V42.4 -/
theorem test_quotL_1 : seen (two (.long 0 0x80000000) (.long 0xFFFFFFFF 0xFFFFFFFF)) 0x52031200 (fun t => t.reg 3) =
    some (.long 0 0x80000000) := by decide

/-- V42.8 -/
theorem test_remI_1 : seen (two (.int [0, 0, 0, 0, 0, 0, 0, 0] 0xFFFFFFFF) (.int [] 0xFFFFFFFF)) 0x54031200 (fun t =>
    t.reg 3) = some (.int [] 0) := by decide

/-- V42.5 -/
theorem test_remL_1 : seen (two (.long 0 0x80000000) (.long 0xFFFFFFFF 0xFFFFFFFF)) 0x56031200 (fun t => t.reg 3) =
    some (.long 0 0) := by decide

/-- V42.6 -/
theorem test_remL_2 : seen (two (.long 0x00000005 0) (.long 0 0)) 0x56031200 (fun t => (t.err, t.errcode, t.errcmd)) =
    some (true, 4, 0x56031200) := by decide

/-- V42.10 -/
theorem test_divI_1 : seen (two (.int [0x00000009] 0) (.int [0x00000004] 0)) 0x58011200 (fun t => t.reg 1) = some
    (.int [0x00000002] 0) := by decide

/-- V42.3 -/
theorem test_divI_2 : seen (two (.int [0x00000005] 0) (.int [] 0)) 0x58031200 (fun t => (t.err, t.errcode, t.errcmd))
    = some (true, 4, 0x58031200) := by decide

/-- V42.2 -/
theorem test_modI_1 : seen (two (.int [0xFFFFFFF9] 0xFFFFFFFF) (.int [0x00000002] 0)) 0x5C031200 (fun t => t.reg 3) =
    some (.int [0x00000001] 0) := by decide

/-- the table of 2.3: -9223372036854775808 and 2 -/
theorem test_quotL_2 : seen (two (.long 0 0x80000000) (.long 0x00000002 0)) 0x52031200 (fun t => t.reg 3) = some
    (.long 0 0xC0000000) := by decide

/-- the table of 2.3: -9223372036854775808 and 3 -/
theorem test_divL_1 : seen (two (.long 0 0x80000000) (.long 0x00000003 0)) 0x5A031200 (fun t => t.reg 3) = some (.long
    0x55555555 0xD5555555) := by decide

/-- the table of 2.3: 9223372036854775807 and -9223372036854775808 -/
theorem test_divL_2 : seen (two (.long 0xFFFFFFFF 0x7FFFFFFF) (.long 0 0x80000000)) 0x5A031200 (fun t => t.reg 3) =
    some (.long 0xFFFFFFFF 0xFFFFFFFF) := by decide

/-- the table of 2.3: 9223372036854775807 and -9223372036854775808 -/
theorem test_modL_1 : seen (two (.long 0xFFFFFFFF 0x7FFFFFFF) (.long 0 0x80000000)) 0x5E031200 (fun t => t.reg 3) =
    some (.long 0xFFFFFFFF 0xFFFFFFFF) := by decide

/-- the table of 2.3: -9223372036854775808 and 3 -/
theorem test_modL_2 : seen (two (.long 0 0x80000000) (.long 0x00000003 0)) 0x5E031200 (fun t => t.reg 3) = some (.long
    0x00000001 0) := by decide

/-! ### Compare (2.4) -/

/-- V43.4 -/
theorem test_cmpI_1 : seen (two (.int [0, 0, 0, 0xFFFFFFF0] 0xFFFFFFFF) (.int [] 0xFFFFFFFF)) 0x60001200 (fun t =>
    (t.resLo, t.resHi, t.cmp)) = some (0xFFFFFFFF, 0, 0b11) := by decide

/-- V43.12 -/
theorem test_cmpI_2 : seen (two (.int [0, 0, 0, 0, 0, 0, 0, 0x80000000] 0) (.int [0, 0, 0, 0, 0, 0, 0, 0] 0xFFFFFFFF))
    0x60001200 (fun t => (t.resLo, t.resHi, t.cmp)) = some (0x00000001, 0, 0b01) := by decide

/-- V43.7 -/
theorem test_cmpL_1 : seen (two (.long 0xFFFFFFFF 0xFFFFFFFF) (.long 0xFFFFFFFF 0)) 0x62001200 (fun t => (t.resLo,
    t.resHi, t.cmp)) = some (0xFFFFFFFF, 0, 0b11) := by decide

/-- V43.8 -/
theorem test_sgnI_1 : seen (one (.int [0, 0, 0, 0xFFFFFFF0] 0xFFFFFFFF)) 0x64001000 (fun t => (t.resLo, t.resHi,
    t.cmp)) = some (0xFFFFFFFF, 0, 0b11) := by decide

/-- V43.9 -/
theorem test_sgnI_2 : seen (one (.int [] 0)) 0x64001000 (fun t => (t.resLo, t.resHi, t.cmp)) = some (0, 0, 0b00) := by
    decide

/-- V43.10 -/
theorem test_sgnL_1 : seen (one (.long 0 0x80000000)) 0x66001000 (fun t => (t.resLo, t.resHi, t.cmp)) = some
    (0xFFFFFFFF, 0, 0b11) := by decide

/-! ### Bitwise and shift (2.5) -/

/-- V44.1 -/
theorem test_andI_1 : seen (two (.int [0xFFFFFFFA] 0xFFFFFFFF) (.int [0x0000000F, 0x00000001] 0)) 0x68031200 (fun t =>
    t.reg 3) = some (.int [0x0000000A, 0x00000001] 0) := by decide

/-- V44.5 -/
theorem test_andI_2 : seen (two (.int [] 0xFFFFFFFF) (.int [0, 0xFFFFFF00] 0xFFFFFFFF)) 0x68031200 (fun t => t.reg 3)
    = some (.int [0, 0xFFFFFF00] 0xFFFFFFFF) := by decide

/-- V44.2 -/
theorem test_orI_1 : seen (two (.int [0xFFFFFFFA] 0xFFFFFFFF) (.int [0x0000000F, 0x00000001] 0)) 0x6C031200 (fun t =>
    t.reg 3) = some (.int [] 0xFFFFFFFF) := by decide

/-- V44.3 -/
theorem test_xorI_1 : seen (two (.int [0xFFFFFFFA] 0xFFFFFFFF) (.int [0x0000000F, 0x00000001] 0)) 0x70031200 (fun t =>
    t.reg 3) = some (.int [0xFFFFFFF5, 0xFFFFFFFE] 0xFFFFFFFF) := by decide

/-- V44.6 -/
theorem test_xorI_2 : seen (two (.int [0, 0, 0, 0, 0, 0, 0, 0x80000000] 0) (.int [0, 0, 0, 0, 0, 0, 0, 0x80000000]
    0xFFFFFFFF)) 0x70031200 (fun t => t.reg 3) = some (.int [0, 0, 0, 0, 0, 0, 0, 0] 0xFFFFFFFF) := by decide

/-- V44.4 -/
theorem test_notI_1 : seen (one (.int [0x0000000F, 0x00000001] 0)) 0x74021000 (fun t => t.reg 2) = some (.int
    [0xFFFFFFF0, 0xFFFFFFFE] 0xFFFFFFFF) := by decide

/-- V44.7 -/
theorem test_notI_2 : seen (one (.int [0, 0, 0, 0, 0, 0, 0, 0] 0xFFFFFFFF)) 0x74021000 (fun t => t.reg 2) = some (.int
    [0xFFFFFFFF, 0xFFFFFFFF, 0xFFFFFFFF, 0xFFFFFFFF, 0xFFFFFFFF, 0xFFFFFFFF, 0xFFFFFFFF, 0xFFFFFFFF] 0) := by decide

/-- V44.8 -/
theorem test_andL_1 : seen (two (.long 0xF0F0F0F0 0x0000FFFF) (.long 0xFF00FF00 0xFFFF0000)) 0x6A031200 (fun t =>
    t.reg 3) = some (.long 0xF000F000 0) := by decide

/-- V44.9 -/
theorem test_orL_1 : seen (two (.long 0xF0F0F0F0 0x0000FFFF) (.long 0xFF00FF00 0xFFFF0000)) 0x6E031200 (fun t => t.reg
    3) = some (.long 0xFFF0FFF0 0xFFFFFFFF) := by decide

/-- V44.10 -/
theorem test_xorL_1 : seen (two (.long 0xF0F0F0F0 0x0000FFFF) (.long 0xFF00FF00 0xFFFF0000)) 0x72031200 (fun t =>
    t.reg 3) = some (.long 0x0FF00FF0 0xFFFFFFFF) := by decide

/-- V44.11 -/
theorem test_notL_1 : seen (one (.long 0xF0F0F0F0 0x0000FFFF)) 0x76021000 (fun t => t.reg 2) = some (.long 0x0F0F0F0F
    0xFFFF0000) := by decide

/-- V44.13 -/
theorem test_shlI_1 : seen (one (.int [0xFFFFFFFD] 0xFFFFFFFF)) 0x78021021 (fun t => t.reg 2) = some (.int [0,
    0xFFFFFFFA] 0xFFFFFFFF) := by decide

/-- V44.15 -/
theorem test_shlI_2 : seen (one (.int [0x00000001] 0)) 0x78021100 (fun t => (t.err, t.errcode, t.errcmd)) = some
    (true, 9, 0x78021100) := by decide

/-- V44.19 -/
theorem test_shlL_1 : seen (one (.long 0xFFFFFFFD 0xFFFFFFFF)) 0x7A02103F (fun t => t.reg 2) = some (.long 0
    0x80000000) := by decide

/-- V44.21 -/
theorem test_shlL_2 : seen (one (.long 0xFFFFFFFF 0xFFFFFFFF)) 0x7A021040 (fun t => t.reg 2) = some (.long 0 0) := by
    decide

/-- V44.23 -/
theorem test_shrI_1 : seen (one (.int [0xFFFFFFFB] 0xFFFFFFFF)) 0x7C021001 (fun t => t.reg 2) = some (.int
    [0xFFFFFFFD] 0xFFFFFFFF) := by decide

/-- V44.24 -/
theorem test_shrI_2 : seen (one (.int [0xFFFFFFFB] 0xFFFFFFFF)) 0x7C021FFF (fun t => t.reg 2) = some (.int []
    0xFFFFFFFF) := by decide +kernel

/-- V44.29 -/
theorem test_shrL_1 : seen (one (.long 0xFFFFFFFD 0xFFFFFFFF)) 0x7E021064 (fun t => t.reg 2) = some (.long 0xFFFFFFFF
    0xFFFFFFFF) := by decide

/-- V44.31 -/
theorem test_shrL_2 : seen (one (.long 0 0x80000000)) 0x7E02103E (fun t => t.reg 2) = some (.long 0xFFFFFFFE
    0xFFFFFFFF) := by decide

/-! ### The string buffer (2.6) -/

/-- V45.1 -/
theorem test_sclr_1 : seen (State.reset.setText [0x61, 0x62, 0x63]) 0x80000000 (fun t => t.text) = some ([]) := by
    decide

/-- V45.2 -/
theorem test_sput_1 : seen (withArgs 0x12345631 0 (State.reset.setText [0x37])) 0x84000000 (fun t => t.text) = some
    ([0x37, 0x31]) := by decide

/-- V45.3 -/
theorem test_sput_2 : seen (withArgs 0x00000031 0 (State.reset.setText (List.replicate 80 0x31))) 0x84000000 (fun t =>
    (t.err, t.errcode, t.errcmd)) = some (true, 11, 0x84000000) := by decide

/-- V45.4 -/
theorem test_sget_1 : seen (withArgs 0x00000001 0 (State.reset.setText [0x2D, 0x31, 0x32])) 0x88000000 (fun t =>
    (t.resLo, t.resHi)) = some (0x00000031, 0) := by decide

/-- V45.6 -/
theorem test_sget_2 : seen (withArgs 0xFFFFFFFF 0 (State.reset.setText [0x2D, 0x31, 0x32])) 0x88000000 (fun t =>
    (t.err, t.errcode, t.errcmd)) = some (true, 10, 0x88000000) := by decide

/-- V45.7 -/
theorem test_parseI_1 : seen (State.reset.setText [0x2D, 0x31, 0x32, 0x33]) 0x8C01000A (fun t => t.reg 1) = some (.int
    [0xFFFFFF85] 0xFFFFFFFF) := by decide

/-- V45.20 -/
theorem test_parseI_2 : seen (State.reset.setText [0x31, 0x78, 0x2D]) 0x8C01000A (fun t => (t.err, t.errcode,
    t.errcmd)) = some (true, 7, 0x8C01000A) := by decide

/-- V45.31 -/
theorem test_tostrI_1 : seen ((one (.int [0xFFFFFF85] 0xFFFFFFFF)).setText [0x61, 0x62, 0x63]) 0x90001000 (fun t =>
    (t.resLo, t.resHi, t.text)) = some (0x00000004, 0, [0x2D, 0x31, 0x32, 0x33]) := by decide

/-- V45.34 -/
theorem test_tostrI_2 : seen (one (.int [0, 0] 0xFFFFFFFF)) 0x90001000 (fun t => (t.resLo, t.resHi, t.text)) = some
    (0x00000015, 0, [0x2D, 0x31, 0x38, 0x34, 0x34, 0x36, 0x37, 0x34, 0x34, 0x30, 0x37, 0x33, 0x37, 0x30, 0x39, 0x35,
    0x35, 0x31, 0x36, 0x31, 0x36]) := by decide

/-- V45.35 -/
theorem test_tostrL_1 : seen (one (.long 0 0x80000000)) 0x92001000 (fun t => (t.resLo, t.resHi, t.text)) = some
    (0x00000014, 0, [0x2D, 0x39, 0x32, 0x32, 0x33, 0x33, 0x37, 0x32, 0x30, 0x33, 0x36, 0x38, 0x35, 0x34, 0x37, 0x37,
    0x35, 0x38, 0x30, 0x38]) := by decide

/-! ### Bit decomposition (2.7) -/

/-- V46.3 -/
theorem test_decd_1 : seen (withArgs 0 0xC0060000 State.reset) 0xA0010000 (fun t => (t.reg 1, t.resLo, t.resHi)) =
    some (.int [0, 0x00160000] 0, 0xFFFFFFCD, 0xFFFFFFFF) := by decide

/-- V46.9 -/
theorem test_decd_2 : seen (withArgs 0xFFFFFFFF 0x000FFFFF State.reset) 0xA0010000 (fun t => (t.reg 1, t.resLo,
    t.resHi)) = some (.int [0xFFFFFFFF, 0x000FFFFF] 0, 0xFFFFFBCE, 0x00000001) := by decide

/-- V46.17 -/
theorem test_decf_1 : seen (withArgs 0xC0300000 0xDEADBEEF State.reset) 0xA4010000 (fun t => (t.reg 1, t.resLo,
    t.resHi)) = some (.int [0x00B00000] 0, 0xFFFFFFEA, 0xFFFFFFFF) := by decide

/-- V46.27 -/
theorem test_decf_2 : seen (withArgs 0x7FC00000 0xDEADBEEF State.reset) 0xA4010000 (fun t => (t.reg 1, t.resLo,
    t.resHi)) = some (.int [0x00C00000] 0, 0x00000069, 0x00000001) := by decide

/-- R261: the two infinities, a NaN, the smallest subnormal (E = 0) and 1.0 (E = 127). -/
theorem test_f32_reading : f32 0x7F800000 = .inf false ∧ f32 0xFF800000 = .inf true ∧ f32 0x7FC00000 = .nan ∧
    f32 0x80000001 = .finite true 1 (-149) ∧ f32 0x3F800000 = .finite false (2 ^ 23) (-23) := by decide

/-! ### The host protocol (V60.16 to V60.23) -/

/-- The state after one step with the events `es` on the tape. -/
def after (es : List Event) (s : State) : Option State :=
  match step { s with tape := es } with
  | .next t => some t
  | .fault _ => none
  | .refused _ => none

/-- Reset with DIVZERO recorded. -/
def failed : State := { State.reset with err := true, errcode := 4, errcmd := 0x58031200 }

/-- LDI.I x1 in flight with A_LO = 5. -/
def loading : State := (withArgs 5 0 State.reset).accept 0x08010000

/-- V60.16 -/
theorem test_host_lost_after_error : (after [.write 0 4 0x08010000] failed).map (fun t => (t.lost, t.busy, t.err)) =
    some (true, false, true) := by decide

/-- V60.17 -/
theorem test_host_clears_error_only : (after [.write 0x14 4 2] { failed with lost := true }).map
    (fun t => (t.err, t.errcode, t.lost, t.errcmd)) = some (false, 0, true, 0x58031200) := by decide

/-- V60.18 -/
theorem test_host_clears_lost : (after [.write 0x14 4 4] { State.reset with lost := true }).map (fun t => t.lost) =
    some false := by decide

/-- V60.19: the write goes to ARG_LO, the command keeps the latched A_LO. -/
theorem test_host_argument_is_latched : ((after [.write 0x04 4 9] loading).bind (after [.engine])).map
    (fun t => (t.reg 1, t.argLo)) = some (.int [5] 0, 9) := by decide

/-- V60.20 -/
theorem test_host_lost_while_busy : (after [.write 0 4 0x04021000] loading).map (fun t => (t.lost, t.busy, t.curCmd)) =
    some (true, true, 0x08010000) := by decide

/-- V60.21 -/
theorem test_host_old_result_while_busy : (after [.read 0x0C 4] { (one (.int [5] 0)).accept 0x90001000 with resLo := 0x11 }).map
    (fun t => t.reads) = some [0x11] := by decide

/-- V60.22 -/
theorem test_host_identity : (((after [.read 0x18 4] State.reset).bind (after [.read 0x1C 4])).bind
    (after [.read 0x20 4])).map (fun t => t.reads) = some [0x50, 0x08, 0x434F5245] := by decide

/-- V60.23 -/
theorem test_host_reset_ends_the_command : after [.reset] loading = some State.reset := by decide

/-- R37, R310: acceptance latches the word and both arguments. -/
theorem test_host_accepts : (after [.write 0 4 0x0E010000] (withArgs 3 4 State.reset)).map
    (fun t => (t.busy, t.curCmd, t.aLo, t.aHi)) = some (true, 0x0E010000, 3, 4) := by decide

/-- P5: STATUS with ERR = 1, LOST = 1 and ERRCODE = 4 reads 0x46. -/
theorem test_host_reads_status : (after [.read 0x14 4] { failed with lost := true }).map (fun t => t.reads) =
    some [0x46] := by decide

/-- V60.1: a word of no row completes with ILLEGAL. -/
theorem test_illegal_word : (ran State.reset 0x28000000).map (fun t => (t.err, t.errcode, t.errcmd, t.busy)) =
    some (true, 1, 0x28000000, false) := by decide

/-- V60.6 and V60.7: the first operand is checked before the second. -/
theorem test_first_operand_first : (ran (State.reset.setReg 2 (.long 3 0)) 0x40031200).map (fun t => t.errcode) = some 2 := by
  decide

/-! ### Witnesses: a concrete state and operands for the hypotheses of each statement, clause by clause -/

/-- Registers of every kind and at the bounds of their ranges; `x0` and `x9` to `x15` hold nothing. -/
def sample : State :=
  ((((((((State.reset.setReg 1 (.int [0xFFFFFFF9] 0xFFFFFFFF)).setReg 2 (.int [2] 0)).setReg 3
    (.int (List.replicate 8 0xFFFFFFFF) 0)).setReg 4 (.long 0 0x80000000)).setReg 5 (.long 0xFFFFFFFF 0xFFFFFFFF)).setReg 6
    (.int [] 0)).setReg 7 (.long 0 0)).setReg 8 (.int (List.replicate 8 0) 0xFFFFFFFF))

/-- `Value.ok 8` as a test. -/
def okTest : Value → Bool
  | .empty => true
  | .int w sg => decide ((sg = 0 ∨ sg = signOnes) ∧ w.getLast? ≠ some sg ∧ w.length ≤ 8)
  | .long _ _ => true

theorem ok_of_test (v : Value) (h : okTest v = true) : v.ok 8 := by
  cases v <;> simp_all [okTest, Value.ok, Canonical]

theorem sample_inv : sample.Inv where
  params := by decide +kernel
  regs r := ok_of_test _ ((by decide : ∀ r : Reg, okTest (sample.reg r) = true) r)
  textLength := by decide
  bufferForm := by decide
  bufferRange := by decide
  noError := by decide
  errorCode := by decide
  errorIdle := by decide
  compare := by decide
  idle := by decide

/-- An error recorded in a state of the invariant. -/
def sampleFailed : State := { sample with err := true, errcode := 9, errcmd := 0x40031200 }

theorem sampleFailed_inv : sampleFailed.Inv where
  params := sample_inv.params
  regs := sample_inv.regs
  textLength := sample_inv.textLength
  bufferForm := sample_inv.bufferForm
  bufferRange := sample_inv.bufferRange
  noError := by decide
  errorCode := by decide
  errorIdle := by decide
  compare := by decide
  idle := by decide

/-- A command in flight in a state of the invariant: MOV.I x9, x1. -/
def sampleBusy : State := { sample with busy := true, curCmd := 0x04091000, aLo := 0x80000000, aHi := 0x3FF80000 }

theorem sampleBusy_inv : sampleBusy.Inv where
  params := sample_inv.params
  regs := sample_inv.regs
  textLength := sample_inv.textLength
  bufferForm := sample_inv.bufferForm
  bufferRange := sample_inv.bufferRange
  noError := by decide
  errorCode := by decide
  errorIdle := by decide
  compare := by decide
  idle := by decide

theorem reset_regs (r : Reg) : State.reset.reg r = .empty := (by decide : ∀ r : Reg, State.reset.reg r = .empty) r

/-- The state after a command, for the witnesses that speak of one. -/
def result (i : Instr) (s : State) : State :=
  match exec i s with
  | .next t => t
  | .fault _ => s
  | .refused _ => s

/-- Hypotheses on the operands of the Integer commands: the two types of failure for the first and for the second operand, and
values at both ends of the range. -/
theorem wit_integer_operands :
    FailsInt sample 0 .unwritten ∧ FailsInt sample 4 .type ∧ HoldsInt sample 1 (-7) ∧ HoldsInt sample 2 2 ∧
    HoldsInt sample 3 (2 ^ 256 - 1) ∧ HoldsInt sample 6 0 ∧ HoldsInt sample 8 (-2 ^ 256) :=
  ⟨.inl ⟨by decide, rfl⟩, .inr ⟨_, _, rfl, rfl⟩, ⟨_, _, rfl, by decide⟩, ⟨_, _, rfl, by decide⟩, ⟨_, _, rfl, by decide⟩,
    ⟨_, _, rfl, by decide⟩, ⟨_, _, rfl, by decide⟩⟩

/-- The same for the Long commands. -/
theorem wit_long_operands :
    FailsLong sample 0 .unwritten ∧ FailsLong sample 1 .type ∧ HoldsLong sample 4 (-2 ^ 63) ∧ HoldsLong sample 5 (-1) ∧
    HoldsLong sample 7 0 :=
  ⟨.inl ⟨by decide, rfl⟩, .inr ⟨_, _, rfl, rfl⟩, ⟨_, _, rfl, by decide⟩, ⟨_, _, rfl, by decide⟩, ⟨_, _, rfl, by decide⟩⟩

/-- Both sides of the capacity bound, at its ends. -/
theorem wit_capacity :
    Fits sample (2 ^ 256 - 1) ∧ ¬Fits sample (2 ^ 256) ∧ Fits sample (-2 ^ 256) ∧ ¬Fits sample (-2 ^ 256 - 1) := by
  unfold Fits; decide

theorem wit_DecodeOfEncodeIsTheCommand : (Instr.shrL 15 15 4095).wf = true ∧ (Instr.parseI 15 255).wf = true ∧
    (Instr.addI 15 0 15).wf = true := by decide

theorem wit_EncodeOfDecodeIsTheWord : decode 0x7E0FFFFF = .ok (.shrL 15 15 4095) ∧ decode 0x8C0F00FF = .ok (.parseI 15 255) := by
  decide

theorem wit_WordsSelectTheirRowOrRaiseIllegal :
    (("MOV.I", 0x04000000, 0xFFF00FFF) ∈ opcodeMap ∧ (0x04021000 : Word) &&& 0xFFF00FFF = 0x04000000) ∧
    (∀ row ∈ opcodeMap, (0x28000000 : Word) &&& row.2.2 ≠ row.2.1) ∧
    ({ sampleBusy with curCmd := 0x28000000 } : State).tape = [] ∧
    ({ sampleBusy with curCmd := 0x28000000, tape := [.engine] } : State).tape = .engine :: [] := by decide

theorem wit_ReservedEncodingsAreNoCommand :
    ((0x28000000 : Word).toNat / 2 ^ 26 = 0x0A ∧ (0x9C000000 : Word).toNat / 2 ^ 26 = 0x27 ∧
      0x2A ≤ (0xA8000000 : Word).toNat / 2 ^ 26) ∧
    ((0x02000000 : Word).toNat / 2 ^ 26 = 0 ∧ (0x02000000 : Word).getLsbD 25 = true ∧
      (0xA6000000 : Word).toNat / 2 ^ 26 = 0x29 ∧ (0xA6000000 : Word).getLsbD 25 = true) ∧
    ((0x00100000 : Word).extractLsb' 20 5 ≠ 0 ∧ (0x01000000 : Word).extractLsb' 20 5 ≠ 0) := by decide

theorem wit_StepRunsTheCommandInFlight : sampleBusy.busy = true ∧ decode sampleBusy.curCmd = .ok (.movI 9 1) ∧
    sampleBusy.tape = [] ∧ ({ sampleBusy with tape := [.engine] } : State).tape = .engine :: [] ∧
    ({ sampleBusy with tape := [.poll] } : State).tape = .poll :: [] := by decide

theorem wit_IdleBlockKeepsItsState : sample.busy = false ∧ sample.tape = [] ∧
    ({ sample with tape := [.engine] } : State).tape = .engine :: [] ∧
    ({ sample with tape := [.poll] } : State).tape = .poll :: [] := by decide

theorem wit_CmdWriteIsAcceptedOrLost :
    (({ sample with tape := [.write 0 4 5] } : State).tape = .write sample.coreBase 4 5 :: [] ∧ sample.busy = false ∧
      sample.err = false) ∧ sampleBusy.busy = true ∧ sampleFailed.err = true ∧
    ({ sample with tape := [.read 0 4] } : State).tape = .read sample.coreBase 4 :: [] := by decide

theorem wit_StatusWriteClearsWhatItsBitsSay :
    ({ sampleFailed with tape := [.write 0x14 4 2] } : State).tape = .write (sampleFailed.coreBase + 0x14) 4 2 :: [] := by decide

theorem wit_ArgumentWritesLeaveTheCommandInFlightAlone :
    ({ sampleBusy with tape := [.write 4 4 9] } : State).tape = .write (sampleBusy.coreBase + 0x04) 4 9 :: [] ∧
    ({ sampleBusy with tape := [.write 8 4 9] } : State).tape = .write (sampleBusy.coreBase + 0x08) 4 9 :: [] ∧
    exec (.movI 9 1) sampleBusy = .next (result (.movI 9 1) sampleBusy) ∧
    (({ sample with tape := [.write 0 4 5] } : State).tape = .write sample.coreBase 4 5 :: [] ∧ sample.busy = false ∧
      sample.err = false) := ⟨by decide, by decide, rfl, by decide⟩

theorem wit_ReservedAndReadOnlyOffsets :
    ({ sample with tape := [.read 0 4] } : State).tape = .read (sample.coreBase + 0x00) 4 :: [] ∧
    ({ sample with tape := [.read 0x3C 4] } : State).tape = .read (sample.coreBase + 0x3C) 4 :: [] ∧
    ({ sample with tape := [.write 0x0C 4 7] } : State).tape = .write (sample.coreBase + 0x0C) 4 7 :: [] ∧
    ({ sample with tape := [.write 0x3C 4 7] } : State).tape = .write (sample.coreBase + 0x3C) 4 7 :: [] := by decide

theorem wit_WindowReadsReturnTheRegisters :
    ({ sample with tape := [.read 0x24 4] } : State).tape = .read (sample.coreBase + 0x24) 4 :: [] ∧
    ({ sample with tape := [.write 0x20 4 7] } : State).tape = .write (sample.coreBase + 0x20) 4 7 :: [] := by decide

theorem wit_StatusWordShowsItsFields :
    (sample.Inv ∧ sample.statusWord.getLsbD 1 = false) ∧ (sampleFailed.Inv ∧ sampleFailed.statusWord.getLsbD 1 = true) :=
  ⟨⟨sample_inv, by decide⟩, ⟨sampleFailed_inv, by decide⟩⟩

theorem wit_UndefinedAccessIsRefused :
    (sample.coreBase ≤ 0 ∧ 0 < sample.coreBase + 64 ∧ (1 : Nat) ≠ 4) ∧
    (sample.coreBase ≤ 63 ∧ 63 < sample.coreBase + 64 ∧ ¬4 ∣ 63 - sample.coreBase) ∧
    ({ sample with tape := [.write 0 1 7] } : State).tape = .write 0 1 7 :: [] ∧
    ({ sample with tape := [.read 63 4] } : State).tape = .read 63 4 :: [] := by decide

theorem wit_AccessOutsideTheWindowFaults :
    (3 : Nat) < ({ sample with coreBase := 4 } : State).coreBase ∧ sample.coreBase + 64 ≤ 64 ∧
    ({ sample with tape := [.write 64 4 7] } : State).tape = .write 64 4 7 :: [] ∧
    ({ sample with tape := [.read 64 4] } : State).tape = .read 64 4 :: [] ∧
    (({ sample with coreBase := 8, tape := [.read 4 8] } : State).tape = .read 4 8 :: [] ∧ 4 < 8 ∧ 8 < 4 + 8) := by decide

theorem wit_ResetGivesTheResetState : ({ sampleBusy with tape := [.reset] } : State).tape = .reset :: [] := by decide

theorem wit_ResetMeetsTheInvariant : Config.paramsOk (2 : Word).toNat (21 : Word).toNat ∧
    ¬Config.paramsOk (2 : Word).toNat (20 : Word).toNat ∧ ¬Config.paramsOk (1 : Word).toNat (21 : Word).toNat := by decide

theorem wit_EveryStepKeepsTheInvariant : (sampleBusy.Inv ∧ step sampleBusy = .next (result (.movI 9 1) sampleBusy)) ∧
    (sample.Inv ∧ step sample = .next sample) := ⟨⟨sampleBusy_inv, rfl⟩, ⟨sample_inv, rfl⟩⟩

theorem wit_BusyEndsWithinTheTape : sampleBusy.busy = true ∧
    ∀ e ∈ [Event.write 0 4 7, .read 0x3C 4, .poll, .engine, .reset],
      DefinedEvent { sampleBusy with tape := [.write 0 4 7, .read 0x3C 4, .poll, .engine, .reset] } e := by
  refine ⟨rfl, ?_⟩
  intro e he
  simp only [List.mem_cons, List.not_mem_nil, or_false] at he
  rcases he with rfl | rfl | rfl | rfl | rfl <;> simp only [DefinedEvent] <;> decide

/-- For the statements about every next state of `exec`: a command that succeeds and one that raises an error. -/
theorem wit_ErrorsArePrecise :
    (exec (.movI 9 1) sampleBusy = .next (result (.movI 9 1) sampleBusy) ∧ (result (.movI 9 1) sampleBusy).err = false) ∧
    (exec (.movI 9 0) sampleBusy = .next (result (.movI 9 0) sampleBusy) ∧ (result (.movI 9 0) sampleBusy).err = true) :=
  ⟨⟨rfl, by decide⟩, ⟨rfl, by decide⟩⟩

theorem wit_OnlyListedCommandsRaiseCapacity : sampleBusy.Inv ∧ sampleBusy.err = false ∧ Raises (.addI 9 3 3) sampleBusy 9 :=
  ⟨sampleBusy_inv, by decide, by rfl⟩

theorem wit_CommandsLeaveTheHostSideAlone : exec .sclr sample = .next (result .sclr sample) := rfl

theorem wit_OnlyTheDestinationRegisterChanges : exec (.addI 9 1 2) sample = .next (result (.addI 9 1 2) sample) ∧
    destination (.addI 9 1 2) ≠ some 1 ∧ destination .sput ≠ some 0 := ⟨rfl, by decide, by decide⟩

theorem wit_ResultAndCompareFrame : exec (.addI 9 1 2) sample = .next (result (.addI 9 1 2) sample) ∧
    writesResult (.addI 9 1 2) = false ∧ writesCompare (.addI 9 1 2) = false := ⟨rfl, by decide, by decide⟩

theorem wit_StringBufferFrame :
    (exec (.addI 9 1 2) sample = .next (result (.addI 9 1 2) sample) ∧ writesText (.addI 9 1 2) = false) ∧
    exec .sclr sample = .next (result .sclr sample) ∧ exec .sput sample = .next (result .sput sample) ∧
    exec (.tostrI 1) sample = .next (result (.tostrI 1) sample) ∧ (result (.tostrI 1) sample).strlen ≤ 2 :=
  ⟨⟨rfl, by decide⟩, rfl, rfl, rfl, by decide⟩

theorem wit_HostAccessesNeverTouchValues :
    ({ sampleBusy with tape := [.write 4 4 9] } : State).tape = .write 4 4 9 :: [] ∧
    step { sampleBusy with tape := [.write 4 4 9] } = .next { sampleBusy with argLo := 9 } := ⟨rfl, rfl⟩

theorem wit_EntriesBeyondTheTextAreUnobservable :
    Memory.wf sample.strbuf ∧ Memory.wf [(0, 0x31)] ∧
    (∀ k, k < sample.strlen → Memory.read [(0, 0x31)] k = Memory.read sample.strbuf k) ∧
    exec .sput sample = .next (result .sput sample) ∧
    exec .sput { sample with strbuf := [(0, 0x31)] } = .next (result .sput { sample with strbuf := [(0, 0x31)] }) :=
  ⟨by decide, by decide, fun k h => absurd h (Nat.not_lt_zero k), rfl, rfl⟩

theorem wit_EveryIntegerHasOneCanonicalForm : Canonical [0x80000000] 0 ∧ Canonical [0x80000000] signOnes ∧
    Canonical [] signOnes ∧ Canonical [] 0 := by unfold Canonical; decide

theorem wit_IntegerRegistersHoldExactlyTheirRange : (sample.Inv ∧ HoldsInt sample 8 (-2 ^ 256)) ∧ Fits sample (2 ^ 256 - 1) :=
  ⟨⟨sample_inv, ⟨_, _, rfl, by decide⟩⟩, by unfold Fits; decide⟩

theorem wit_BitwiseUnitsWorkWordByWord : ((0 : Word) = 0 ∨ (0 : Word) = signOnes) ∧ (signOnes = 0 ∨ signOnes = signOnes) ∧
    (2 : Nat) = max ([1, 2] : List Word).length ([3] : List Word).length := by decide

theorem wit_ShifterWorksWordByWord : (signOnes = 0 ∨ signOnes = signOnes) ∧ (64 : Nat) % 32 = 0 ∧ (33 : Nat) % 32 ≠ 0 := by decide

theorem wit_MovCopiesARegister :
    FailsInt sample 0 .unwritten ∧ FailsLong sample 1 .type ∧ HoldsInt sample 1 (-7) ∧ HoldsLong sample 4 (-2 ^ 63) ∧
    (sample.reg 1 = .int [0xFFFFFFF9] 0xFFFFFFFF ∧ Canonical [0xFFFFFFF9] 0xFFFFFFFF) ∧ sample.reg 4 = .long 0 0x80000000 :=
  ⟨wit_integer_operands.1, wit_long_operands.2.1, wit_integer_operands.2.2.1, wit_long_operands.2.2.1,
    ⟨by decide, by unfold Canonical; decide⟩, by decide⟩

theorem wit_LoadsGiveTheArgument : 2 ≤ sampleBusy.maxw.toNat ∧ sampleBusy.aLo.toInt < 0 := by decide

theorem wit_WpushAppendsAWord : FailsInt sampleBusy 4 .type ∧
    (HoldsInt sampleBusy 1 (-7) ∧ Fits sampleBusy (-7 * 2 ^ 32 + sampleBusy.aLo.toNat)) ∧
    (HoldsInt sampleBusy 3 (2 ^ 256 - 1) ∧ ¬Fits sampleBusy ((2 ^ 256 - 1) * 2 ^ 32 + sampleBusy.aLo.toNat)) :=
  ⟨.inr ⟨_, _, rfl, rfl⟩, ⟨⟨_, _, rfl, by decide⟩, by unfold Fits; decide⟩, ⟨⟨_, _, rfl, by decide⟩, by unfold Fits; decide⟩⟩

/-- 0xC004000000000000 is -2.5, which truncates to -2; a NaN has no value; 2^256 does not fit. -/
theorem wit_LdnIntegerTruncates :
    (f64Value ((0xC0040000 : Word) ++ (0 : Word)) = some (-5 / 2) ∧ IsTrunc (-5 / 2) (-2) ∧ Fits sample (-2)) ∧
    f64Value ((0x7FF80000 : Word) ++ (0 : Word)) = none ∧
    (f64Value ((0x4FF00000 : Word) ++ (0 : Word)) = some (2 ^ 256) ∧ IsTrunc (2 ^ 256) (2 ^ 256) ∧ ¬Fits sample (2 ^ 256)) := by
  have h1 : f64Exp ((0xC0040000 : Word) ++ (0 : Word)) = 1024 := by decide
  have h2 : f64Exp ((0x4FF00000 : Word) ++ (0 : Word)) = 1279 := by decide
  have h3 : f64Frac ((0xC0040000 : Word) ++ (0 : Word)) = 2 ^ 50 := by decide
  have h4 : f64Frac ((0x4FF00000 : Word) ++ (0 : Word)) = 0 := by decide
  have h5 : f64Sign ((0xC0040000 : Word) ++ (0 : Word)) = true := by decide
  have h6 : f64Sign ((0x4FF00000 : Word) ++ (0 : Word)) = false := by decide
  have h7 : f64Exp ((0x7FF80000 : Word) ++ (0 : Word)) = 2047 := by decide
  refine ⟨⟨?_, ⟨fun h => ?_, fun _ => ?_⟩, ?_⟩, ?_, ⟨?_, ⟨fun _ => ?_, fun h => ?_⟩, ?_⟩⟩
  · simp only [f64Value, h1, h3, h5]; norm_num
  · norm_num at h
  · norm_num [Int.ceil_eq_iff]
  · unfold Fits; decide
  · simp only [f64Value, h7]; norm_num
  · simp only [f64Value, h2, h4, h6]; norm_num
  · norm_num
  · norm_num at h
  · unfold Fits; decide

/-- -2^63 at the lower bound, 2^63 at the upper, 1.5 between them, a NaN and an infinity. -/
theorem wit_LdnLongTruncatesAndSaturates :
    (f64Exp ((0x7FF80000 : Word) ++ (0 : Word)) = 2047 ∧ f64Frac ((0x7FF80000 : Word) ++ (0 : Word)) ≠ 0) ∧
    (f64Exp ((0xFFF00000 : Word) ++ (0 : Word)) = 2047 ∧ f64Frac ((0xFFF00000 : Word) ++ (0 : Word)) = 0) ∧
    (f64Value ((0xC3E00000 : Word) ++ (0 : Word)) = some (-2 ^ 63) ∧ IsTrunc (-2 ^ 63) (-2 ^ 63)) ∧
    (f64Value ((0x43E00000 : Word) ++ (0 : Word)) = some (2 ^ 63) ∧ IsTrunc (2 ^ 63) (2 ^ 63)) ∧
    (f64Value ((0x3FF80000 : Word) ++ (0 : Word)) = some (3 / 2) ∧ IsTrunc (3 / 2) 1) := by
  have a1 : f64Exp ((0xC3E00000 : Word) ++ (0 : Word)) = 1086 := by decide
  have a2 : f64Frac ((0xC3E00000 : Word) ++ (0 : Word)) = 0 := by decide
  have a3 : f64Sign ((0xC3E00000 : Word) ++ (0 : Word)) = true := by decide
  have b1 : f64Exp ((0x43E00000 : Word) ++ (0 : Word)) = 1086 := by decide
  have b2 : f64Frac ((0x43E00000 : Word) ++ (0 : Word)) = 0 := by decide
  have b3 : f64Sign ((0x43E00000 : Word) ++ (0 : Word)) = false := by decide
  have c1 : f64Exp ((0x3FF80000 : Word) ++ (0 : Word)) = 1023 := by decide
  have c2 : f64Frac ((0x3FF80000 : Word) ++ (0 : Word)) = 2 ^ 51 := by decide
  have c3 : f64Sign ((0x3FF80000 : Word) ++ (0 : Word)) = false := by decide
  refine ⟨by decide, by decide, ⟨?_, ⟨fun h => ?_, fun _ => ?_⟩⟩, ⟨?_, ⟨fun _ => ?_, fun h => ?_⟩⟩,
    ⟨?_, ⟨fun _ => ?_, fun h => ?_⟩⟩⟩
  · simp only [f64Value, a1, a2, a3]; norm_num
  · norm_num at h
  · norm_num
  · simp only [f64Value, b1, b2, b3]; norm_num
  · norm_num
  · norm_num at h
  · simp only [f64Value, c1, c2, c3]; norm_num
  · norm_num [eq_comm, Int.floor_eq_iff]
  · norm_num at h

theorem wit_CvtConvertsBetweenTheTypes :
    FailsInt sample 4 .type ∧ (HoldsInt sample 3 (2 ^ 256 - 1) ∧ (sample.reg 3).ok sample.maxw.toNat) ∧
    FailsLong sample 1 .type ∧ (HoldsLong sample 4 (-2 ^ 63) ∧ 2 ≤ sample.maxw.toNat) :=
  ⟨wit_integer_operands.2.1, ⟨wit_integer_operands.2.2.2.2.1, sample_inv.regs 3⟩, wit_long_operands.2.1,
    ⟨wit_long_operands.2.2.1, by decide⟩⟩

theorem wit_RdwReadsOneWord :
    (HoldsInt sampleBusy 1 (-7) ∧ HoldsLong sampleBusy 4 (-2 ^ 63) ∧ sampleBusy.aLo.toInt < 0) ∧
    (HoldsInt sample 1 (-7) ∧ HoldsLong sample 4 (-2 ^ 63) ∧ 0 ≤ sample.aLo.toInt) :=
  ⟨⟨⟨_, _, rfl, by decide⟩, ⟨_, _, rfl, by decide⟩, by decide⟩, ⟨⟨_, _, rfl, by decide⟩, ⟨_, _, rfl, by decide⟩, by decide⟩⟩

theorem wit_LenReadsLengthAndSign : FailsInt sample 0 .unwritten ∧ HoldsInt sample 1 (-7) ∧
    Canonical [0xFFFFFFF9] 0xFFFFFFFF ∧ intVal [0xFFFFFFF9] 0xFFFFFFFF = -7 :=
  ⟨wit_integer_operands.1, wit_integer_operands.2.2.1, by unfold Canonical; decide, by decide⟩

theorem wit_TonatGivesTheNearestDouble : HoldsInt sample 8 (-2 ^ 256) ∧ HoldsInt sample 6 0 ∧ HoldsLong sample 5 (-1) ∧
    FailsInt sample 0 .unwritten ∧ FailsLong sample 1 .type :=
  ⟨wit_integer_operands.2.2.2.2.2.2, wit_integer_operands.2.2.2.2.2.1, wit_long_operands.2.2.2.1, wit_integer_operands.1,
    wit_long_operands.2.1⟩

/-- A block of MAXW = 40 with `x1 = 2^1024 - 2^970`, `x2` one below it, `x3 = -(2^1024 - 2^970)` and `x4` one above that. -/
def wide : State :=
  ((((State.resetWith 40 400 0).setReg 1 (mkInt (2 ^ 1024 - 2 ^ 970))).setReg 2 (mkInt (2 ^ 1024 - 2 ^ 970 - 1))).setReg 3
    (mkInt (-(2 ^ 1024 - 2 ^ 970)))).setReg 4 (mkInt (-(2 ^ 1024 - 2 ^ 970) + 1))

/-- R122 at its bound: registers at `±(2^1024 - 2^970)`, where the double is an infinity (V40.45). -/
theorem wit_TonatGivesTheNearestDouble_at_bound :
    HoldsInt wide 1 (2 ^ 1024 - 2 ^ 970) ∧ HoldsInt wide 3 (-(2 ^ 1024 - 2 ^ 970)) ∧
    seen wide 0x24001000 (fun t => (t.resLo, t.resHi)) = some (0, 0x7FF00000) ∧
    seen wide 0x24003000 (fun t => (t.resLo, t.resHi)) = some (0, 0xFFF00000) :=
  ⟨⟨_, _, rfl, intVal_mkInt _⟩, ⟨_, _, rfl, intVal_mkInt _⟩, by decide +kernel, by decide +kernel⟩

/-- R122 one below its bound in magnitude, where the double is the largest finite one (V40.46). -/
theorem wit_TonatGivesTheNearestDouble_below_bound :
    HoldsInt wide 2 (2 ^ 1024 - 2 ^ 970 - 1) ∧ HoldsInt wide 4 (-(2 ^ 1024 - 2 ^ 970) + 1) ∧
    seen wide 0x24002000 (fun t => (t.resLo, t.resHi)) = some (0xFFFFFFFF, 0x7FEFFFFF) ∧
    seen wide 0x24004000 (fun t => (t.resLo, t.resHi)) = some (0xFFFFFFFF, 0xFFEFFFFF) :=
  ⟨⟨_, _, rfl, intVal_mkInt _⟩, ⟨_, _, rfl, intVal_mkInt _⟩, by decide +kernel, by decide +kernel⟩

/-- ADD.I, SUB.I, MUL.I and NEG.I at results that fit and at results that do not. -/
theorem wit_IntegerArithmeticIsExact :
    FailsInt sample 0 .unwritten ∧ (HoldsInt sample 1 (-7) ∧ FailsInt sample 4 .type) ∧
    (HoldsInt sample 1 (-7) ∧ HoldsInt sample 2 2 ∧ Fits sample (-7 + 2) ∧ Fits sample (-7 - 2) ∧ Fits sample (-7 * 2)) ∧
    (HoldsInt sample 3 (2 ^ 256 - 1) ∧ ¬Fits sample ((2 ^ 256 - 1) + (2 ^ 256 - 1)) ∧
      ¬Fits sample ((2 ^ 256 - 1) * (2 ^ 256 - 1))) ∧
    (HoldsInt sample 8 (-2 ^ 256) ∧ ¬Fits sample (-2 ^ 256 - 2) ∧ ¬Fits sample (-(-2 ^ 256))) :=
  ⟨wit_integer_operands.1, ⟨wit_integer_operands.2.2.1, wit_integer_operands.2.1⟩,
    ⟨wit_integer_operands.2.2.1, wit_integer_operands.2.2.2.1, by unfold Fits; decide⟩,
    ⟨wit_integer_operands.2.2.2.2.1, by unfold Fits; decide⟩, ⟨wit_integer_operands.2.2.2.2.2.2, by unfold Fits; decide⟩⟩

theorem wit_LongArithmeticWraps : FailsLong sample 0 .unwritten ∧ (HoldsLong sample 4 (-2 ^ 63) ∧ FailsLong sample 1 .type) ∧
    HoldsLong sample 4 (-2 ^ 63) ∧ HoldsLong sample 5 (-1) :=
  ⟨wit_long_operands.1, ⟨wit_long_operands.2.2.1, wit_long_operands.2.1⟩, wit_long_operands.2.2.1, wit_long_operands.2.2.2.1⟩

/-- A zero divisor, an exact quotient that fits, and -2^256 divided by -1, which does not. -/
theorem wit_IntegerDivisionIsExact :
    (HoldsInt sample 1 (-7) ∧ HoldsInt sample 6 0) ∧
    (HoldsInt sample 1 (-7) ∧ HoldsInt sample 2 2 ∧ (2 : Int) ≠ 0 ∧ Fits sample ((-7 : Int).tdiv 2) ∧ Fits sample (-7) ∧
      Fits sample 2) ∧
    (HoldsInt (sample.setReg 2 (.int [] 0xFFFFFFFF)) 8 (-2 ^ 256) ∧ HoldsInt (sample.setReg 2 (.int [] 0xFFFFFFFF)) 2 (-1) ∧
      (-1 : Int) ≠ 0 ∧ ¬Fits (sample.setReg 2 (.int [] 0xFFFFFFFF)) ((-2 ^ 256 : Int).tdiv (-1))) :=
  ⟨⟨wit_integer_operands.2.2.1, wit_integer_operands.2.2.2.2.2.1⟩,
    ⟨wit_integer_operands.2.2.1, wit_integer_operands.2.2.2.1, by decide, by unfold Fits; decide, by unfold Fits; decide,
      by unfold Fits; decide⟩,
    ⟨⟨_, _, rfl, by decide⟩, ⟨_, _, rfl, by decide⟩, by decide, by unfold Fits; decide⟩⟩

theorem wit_LongDivisionWraps : (HoldsLong sample 4 (-2 ^ 63) ∧ HoldsLong sample 7 0) ∧
    (HoldsLong sample 4 (-2 ^ 63) ∧ HoldsLong sample 5 (-1) ∧ (-1 : Int) ≠ 0) :=
  ⟨⟨wit_long_operands.2.2.1, wit_long_operands.2.2.2.2⟩, ⟨wit_long_operands.2.2.1, wit_long_operands.2.2.2.1, by decide⟩⟩

/-- Below, equal and above, for both types. -/
theorem wit_CompareGivesTheOrder :
    (HoldsInt sample 1 (-7) ∧ HoldsInt sample 2 2 ∧ (-7 : Int) < 2) ∧ (HoldsInt sample 8 (-2 ^ 256) ∧ HoldsInt sample 3 (2 ^ 256 - 1)) ∧
    (HoldsLong sample 4 (-2 ^ 63) ∧ HoldsLong sample 5 (-1) ∧ (-2 ^ 63 : Int) < -1) ∧ (HoldsInt sample 6 0 ∧ HoldsLong sample 7 0) :=
  ⟨⟨wit_integer_operands.2.2.1, wit_integer_operands.2.2.2.1, by decide⟩,
    ⟨wit_integer_operands.2.2.2.2.2.2, wit_integer_operands.2.2.2.2.1⟩,
    ⟨wit_long_operands.2.2.1, wit_long_operands.2.2.2.1, by decide⟩,
    ⟨wit_integer_operands.2.2.2.2.2.1, wit_long_operands.2.2.2.2⟩⟩

/-- A result whose every bit is the operation on the operands' bits, for each operation. -/
theorem wit_IntegerBitwiseWorksBitByBit :
    (HoldsInt sample 1 (-7) ∧ HoldsInt sample 6 0 ∧ Fits sample (-7) ∧ Fits sample 0) ∧
    (∀ k, intBit 0 k = (intBit (-7) k && intBit 0 k)) ∧ (∀ k, intBit (-7) k = (intBit (-7) k || intBit 0 k)) ∧
    (∀ k, intBit (-7) k = (intBit (-7) k ^^ intBit 0 k)) := by
  have h : ∀ k, intBit 0 k = false := fun k => by simp [intBit]
  exact ⟨⟨wit_integer_operands.2.2.1, wit_integer_operands.2.2.2.2.2.1, by unfold Fits; decide, by unfold Fits; decide⟩,
    fun k => by simp [h], fun k => by simp [h], fun k => by simp [h]⟩

theorem wit_LongBitwiseWorksBitByBit :
    (HoldsLong sample 4 (-2 ^ 63) ∧ HoldsLong sample 7 0) ∧
    (∀ k, intBit 0 k = (intBit (-2 ^ 63) k && intBit 0 k)) ∧ (∀ k, intBit (-2 ^ 63) k = (intBit (-2 ^ 63) k || intBit 0 k)) ∧
    (∀ k, intBit (-2 ^ 63) k = (intBit (-2 ^ 63) k ^^ intBit 0 k)) := by
  have h : ∀ k, intBit 0 k = false := fun k => by simp [intBit]
  exact ⟨⟨wit_long_operands.2.2.1, wit_long_operands.2.2.2.2⟩, fun k => by simp [h], fun k => by simp [h], fun k => by simp [h]⟩

theorem wit_IntegerShiftsScaleByAPowerOfTwo :
    (HoldsInt sample 2 2 ∧ Fits sample (2 * 2 ^ 254) ∧ ¬Fits sample (2 * 2 ^ 255)) ∧
    (HoldsInt sample 8 (-2 ^ 256) ∧ Fits sample (-2 ^ 256)) :=
  ⟨⟨wit_integer_operands.2.2.2.1, by unfold Fits; decide, by unfold Fits; decide⟩,
    ⟨wit_integer_operands.2.2.2.2.2.2, by unfold Fits; decide⟩⟩

theorem wit_LongShiftsScaleByAPowerOfTwo : FailsLong sample 0 .unwritten ∧ HoldsLong sample 5 (-1) ∧ (64 : Nat) ≤ 64 :=
  ⟨wit_long_operands.1, wit_long_operands.2.2.2.1, by decide⟩

/-- A full buffer and one with room; an index at STRLEN, one below it, and one that is negative as a signed number. -/
theorem wit_StringCommandsWorkOnTheText :
    ({ sample with strlen := 80 } : State).strlen = sample.strcap.toNat ∧
    (({ sample with strlen := 79 } : State).strlen ≠ sample.strcap.toNat ∧ Memory.wf sample.strbuf) ∧
    sample.strlen ≤ sample.aLo.toNat ∧ sampleBusy.strlen ≤ sampleBusy.aLo.toNat ∧
    ({ sample with strlen := 1 } : State).aLo.toNat < ({ sample with strlen := 1 } : State).strlen := by decide

/-- The text -12 and the text 12, each clause of the errors, and the numeral 12. -/
theorem wit_ParseReadsTheNumeral :
    (State.reset.setText [0x2D, 0x31, 0x32]).text = 0x2D :: [0x31, 0x32] ∧
    ((State.reset.setText [0x31, 0x32]).text = [0x31, 0x32] ∧ ([0x31, 0x32] : List Byte).head? ≠ some 0x2D) ∧
    (1 < 2 ∧ 36 < 37) ∧
    ((State.reset.setText []).text = [] ∧ ([] : List Byte).head? ≠ some 0x2D) ∧
    (0x2D : Byte) ∈ ([0x31, 0x2D] : List Byte) ∧
    ((0x2D : Byte) ∉ ([0x31, 0x32] : List Byte) ∧ digitOf 0x32 = some 2 ∧ 2 ≤ 2) ∧
    digitOf 0x40 = none ∧ digitOf 0x7A = some 35 ∧ digitOf 0x5A = some 35 ∧
    (([0x31, 0x32] : List Byte) ≠ [] ∧ IsNumeral 10 [0x31, 0x32] (1 * 10 ^ 1 + (2 * 10 ^ 0 + 0))) := by
  refine ⟨by decide, by decide, by decide, by decide, by decide, by decide, by decide, by decide, by decide, by decide, ?_⟩
  exact .cons _ 1 _ _ (by decide) (by decide) (.cons _ 2 _ _ (by decide) (by decide) .nil)

theorem wit_TostrWritesTheDecimalText : FailsInt sample 0 .unwritten ∧ FailsLong sample 1 .type ∧
    (HoldsInt sample 8 (-2 ^ 256) ∧ HoldsLong sample 4 (-2 ^ 63)) ∧ Memory.wf sample.strbuf ∧ sample.Inv :=
  ⟨wit_integer_operands.1, wit_long_operands.2.1, ⟨wit_integer_operands.2.2.2.2.2.2, wit_long_operands.2.2.1⟩, by decide,
    sample_inv⟩

theorem wit_DecdSplitsADouble : 2 ≤ sampleBusy.maxw.toNat ∧ f64Exp (sampleBusy.aHi ++ sampleBusy.aLo) ≠ 0 ∧
    f64Exp (sample.aHi ++ sample.aLo) = 0 ∧ ∃ u, f64Value (sample.aHi ++ sample.aLo) = some u := by
  refine ⟨by decide, by decide, by decide, ?_⟩
  have h : f64Exp (sample.aHi ++ sample.aLo) = 0 := by decide
  simp [f64Value, h]

/-- A quiet NaN, an infinity and the largest finite double. -/
theorem wit_DecdSplitsADouble_at_max_exp :
    (f64Exp ((0x7FF80000 : Word) ++ (0 : Word)) = 2047 ∧ f64Frac ((0x7FF80000 : Word) ++ (0 : Word)) ≠ 0) ∧
    (f64Exp ((0xFFF00000 : Word) ++ (0 : Word)) = 2047 ∧ f64Frac ((0xFFF00000 : Word) ++ (0 : Word)) = 0) ∧
    f64Exp ((0x7FEFFFFF : Word) ++ (0xFFFFFFFF : Word)) ≠ 2047 := by decide

theorem wit_DecfSplitsAFloat : 2 ≤ sample.maxw.toNat ∧ f32Exp sample.aLo = 0 ∧ f32Exp 0x3FC00000 ≠ 0 ∧
    ∃ u, f32Value sample.aLo = some u := by
  refine ⟨by decide, by decide, by decide, ?_⟩
  have h : f32Exp sample.aLo = 0 := by decide
  simp [f32Value, h]

/-- A quiet NaN, an infinity and the largest finite float. -/
theorem wit_DecfSplitsAFloat_at_max_exp : (f32Exp 0x7FC00000 = 255 ∧ f32Frac 0x7FC00000 ≠ 0) ∧
    (f32Exp 0xFF800000 = 255 ∧ f32Frac 0xFF800000 = 0) ∧ f32Exp 0x7F7FFFFF ≠ 255 := by decide

theorem wit_DivisionIdentities : HoldsInt sample 1 (-7) ∧ HoldsInt sample 2 2 ∧ (2 : Int) ≠ 0 ∧
    (exec (.quotI 9 1 2) sample = .next (result (.quotI 9 1 2) sample) ∧ (result (.quotI 9 1 2) sample).err = false ∧
      HoldsInt (result (.quotI 9 1 2) sample) 9 (-3)) ∧
    (exec (.remI 9 1 2) sample = .next (result (.remI 9 1 2) sample) ∧ (result (.remI 9 1 2) sample).err = false ∧
      HoldsInt (result (.remI 9 1 2) sample) 9 (-1)) ∧
    (exec (.divI 9 1 2) sample = .next (result (.divI 9 1 2) sample) ∧ (result (.divI 9 1 2) sample).err = false ∧
      HoldsInt (result (.divI 9 1 2) sample) 9 (-4)) ∧
    (exec (.modI 9 1 2) sample = .next (result (.modI 9 1 2) sample) ∧ (result (.modI 9 1 2) sample).err = false ∧
      HoldsInt (result (.modI 9 1 2) sample) 9 1) :=
  ⟨wit_integer_operands.2.2.1, wit_integer_operands.2.2.2.1, by decide,
    ⟨rfl, by decide, ⟨[0xFFFFFFFD], 0xFFFFFFFF, by decide, by decide⟩⟩,
    ⟨rfl, by decide, ⟨[], 0xFFFFFFFF, by decide, by decide⟩⟩,
    ⟨rfl, by decide, ⟨[0xFFFFFFFC], 0xFFFFFFFF, by decide, by decide⟩⟩, ⟨rfl, by decide, ⟨[1], 0, by decide, by decide⟩⟩⟩

theorem wit_ParseAfterTostrGivesTheValueBack : sample.Inv ∧ HoldsInt sample 1 (-7) ∧
    exec (.tostrI 1) sample = .next (result (.tostrI 1) sample) := ⟨sample_inv, wit_integer_operands.2.2.1, rfl⟩

theorem wit_ShiftRightUndoesShiftLeft : HoldsInt sample 1 (-7) ∧ Fits sample (-7 * 2 ^ 40) ∧
    exec (.shlI 9 1 40) sample = .next (result (.shlI 9 1 40) sample) :=
  ⟨wit_integer_operands.2.2.1, by unfold Fits; decide, rfl⟩

theorem wit_CvtThereAndBackKeepsALong : 2 ≤ sample.maxw.toNat ∧ sample.reg 4 = .long 0 0x80000000 ∧
    exec (.cvtL 9 4) sample = .next (result (.cvtL 9 4) sample) := ⟨by decide, by decide, rfl⟩

end Sys2Proof.Tests
end

section
/-! The stored form of Integers: the range of a legal stored form, `mkInt` as the only canonical form of its value, and the
length as the least number of words that leaves the sign (R11, R19). -/

namespace Sys2Proof.Machine

theorem signOnes_toInt : signOnes.toInt = -1 := by decide

theorem zero_ne_signOnes : (0 : Word) ≠ signOnes := by decide

theorem intVal_zeroSign (w : List Word) : intVal w 0 = wordsVal w := by
  rw [intVal, if_neg zero_ne_signOnes, sub_zero]

theorem intVal_signOnes (w : List Word) : intVal w signOnes = (wordsVal w : Int) - ((2 ^ (32 * w.length) : Nat) : Int) := by
  simp [intVal]

/-- A stored Integer of `n` words lies in the range of `n` words, whatever its sign word. -/
theorem intVal_range (w : List Word) (sg : Word) :
    -((2 ^ (32 * w.length) : Nat) : Int) ≤ intVal w sg ∧ intVal w sg < ((2 ^ (32 * w.length) : Nat) : Int) := by
  have h := wordsVal_lt w
  unfold intVal
  split <;> omega

theorem intLen_intVal_le (w : List Word) (sg : Word) : intLen (intVal w sg) ≤ w.length :=
  (intLen_le_iff _ _).2 (intVal_range w sg)

/-- A legal stored form has the sign word of its value. -/
theorem signWord_intVal (w : List Word) (sg : Word) (h : sg = 0 ∨ sg = signOnes) : signWord (intVal w sg) = sg := by
  have hlt := wordsVal_lt w
  rcases h with rfl | rfl
  · rw [intVal_zeroSign, signWord, if_neg (by omega)]
  · rw [intVal_signOnes, signWord, if_pos (by omega)]

/-- Flooring by `n` words leaves the sign exactly when the length is at most `n` (R19). -/
theorem ediv_eq_signWord_iff (z : Int) (n : Nat) :
    z / ((2 ^ (32 * n) : Nat) : Int) = (signWord z).toInt ↔ intLen z ≤ n := by
  have hK : (0 : Int) < ((2 ^ (32 * n) : Nat) : Int) := by positivity
  rw [intLen_le_iff, signWord]
  generalize ((2 ^ (32 * n) : Nat) : Int) = K at *
  split
  · rw [signOnes_toInt, Int.ediv_eq_iff_of_pos hK]; omega
  · have h0 : (0 : Word).toInt = 0 := by decide
    rw [h0, Int.ediv_eq_iff_of_pos hK]; omega

theorem intVal_cons (a : Word) (t : List Word) (sg : Word) : intVal (a :: t) sg = a.toNat + 2 ^ 32 * intVal t sg := by
  simp only [intVal, wordsVal, List.length_cons, Nat.mul_succ, pow_add]
  split <;> push_cast <;> ring

theorem intVal_append (u v : List Word) (sg : Word) :
    intVal (u ++ v) sg = wordsVal u + ((2 ^ (32 * u.length) : Nat) : Int) * intVal v sg := by
  induction u with
  | nil => simp [wordsVal]
  | cons a t ih =>
    simp only [List.cons_append, intVal_cons, ih, wordsVal, List.length_cons, Nat.mul_succ, pow_add]
    push_cast
    ring

/-- Flooring by all words but the top ones leaves the value of the top ones. -/
theorem intVal_append_ediv (u v : List Word) (sg : Word) :
    intVal (u ++ v) sg / ((2 ^ (32 * u.length) : Nat) : Int) = intVal v sg := by
  have hu := wordsVal_lt u
  rw [intVal_append, Int.add_mul_ediv_left _ _ (by positivity), Int.ediv_eq_zero_of_lt (by omega) (by omega), zero_add]

/-- A word that is not the sign word is more than the sign. -/
theorem intVal_singleton_ne (top sg : Word) (hsg : sg = 0 ∨ sg = signOnes) (hne : top ≠ sg) :
    intVal [top] sg ≠ sg.toInt := by
  intro h
  refine hne (BitVec.eq_of_toNat_eq ?_)
  rcases hsg with rfl | rfl
  · rw [intVal_zeroSign] at h
    simpa [wordsVal] using h
  · rw [intVal_signOnes, signOnes_toInt] at h
    have hn : signOnes.toNat = 2 ^ 32 - 1 := by decide
    simp only [wordsVal, List.length_singleton] at h
    omega

/-- Word sequences of one length and one unsigned reading are equal. -/
theorem wordsVal_inj (u v : List Word) (hl : u.length = v.length) (h : wordsVal u = wordsVal v) : u = v := by
  induction u generalizing v with
  | nil => exact (List.length_eq_zero_iff.1 hl.symm).symm
  | cons a t ih =>
    obtain - | ⟨b, v⟩ := v
    · simp at hl
    · have ha := a.isLt
      have hb := b.isLt
      simp only [wordsVal] at h
      have hab : a = b := BitVec.eq_of_toNat_eq (by omega)
      rw [hab, ih v (by simpa using hl) (by omega)]

/-- The length of a canonical form is the length of its value: flooring by fewer words leaves more than the sign. -/
theorem intLen_intVal (w : List Word) (sg : Word) (h : Canonical w sg) : intLen (intVal w sg) = w.length := by
  obtain ⟨hsg, htop⟩ := h
  refine le_antisymm (intLen_intVal_le w sg) ?_
  rcases List.eq_nil_or_concat w with rfl | ⟨u, top, rfl⟩
  · exact Nat.zero_le _
  · rw [List.concat_eq_append] at *
    have hne : intVal [top] sg ≠ sg.toInt := intVal_singleton_ne top sg hsg (by simpa using htop)
    have hdiv := ediv_eq_signWord_iff (intVal (u ++ [top]) sg) u.length
    rw [intVal_append_ediv, signWord_intVal _ _ hsg] at hdiv
    have hlt := mt hdiv.2 hne
    rw [List.length_append, List.length_singleton]
    omega

/-- A canonical form is what `mkInt` makes of its value (R19). -/
theorem mkInt_intVal (w : List Word) (sg : Word) (h : Canonical w sg) : mkInt (intVal w sg) = .int w sg := by
  have hlen := intLen_intVal w sg h
  have hsign := signWord_intVal w sg h.1
  unfold mkInt
  rw [hlen, hsign]
  congr 1
  refine wordsVal_inj _ _ (by simp) ?_
  have hlt := wordsVal_lt w
  have hmod := wordsVal_wordAt w.length (intVal w sg)
  rw [intVal] at hmod
  zify
  rw [intVal, hmod]
  split
  · rw [Int.sub_emod_right, Int.emod_eq_of_lt] <;> omega
  · rw [sub_zero, Int.emod_eq_of_lt] <;> omega

/-- Settles O29: a canonical form is `mkInt` of its value, so two of one value are equal. -/
theorem everyIntegerHasOneCanonicalForm : Obligations.EveryIntegerHasOneCanonicalForm := by
  unfold Obligations.EveryIntegerHasOneCanonicalForm
  refine ⟨fun w w' sg sg' h h' e => ?_, fun z => ?_⟩
  · have := (mkInt_intVal w sg h).symm.trans (e ▸ mkInt_intVal w' sg' h')
    simpa using this
  · have hdiv := ediv_eq_signWord_iff z
    push_cast at hdiv
    refine ⟨_, _, rfl, ⟨signWord_cases z, getLast_mkInt_ne z⟩, intVal_mkInt z, ?_, ?_, fun n hn => ?_⟩
    · unfold signWord
      split <;> simp_all [signOnes]
    · simpa using (hdiv (intLen z)).2 le_rfl
    · rw [ne_eq, hdiv]
      simpa using hn

/-- The value of an Integer register of a state of the invariant fits (R11). -/
theorem fits_of_holdsInt (s : State) (r : Reg) (z : Int) (hs : s.Inv) (h : HoldsInt s r z) : Fits s z := by
  obtain ⟨w, sg, hr, rfl⟩ := h
  have hok := hs.regs r
  rw [hr] at hok
  obtain ⟨-, hlen⟩ := hok
  exact (fits_iff s _).2 ((intLen_intVal_le w sg).trans hlen)

/-- The canonical Integer of a number that fits is legal in a register (R32). -/
theorem mkInt_ok (s : State) (z : Int) (h : Fits s z) : (mkInt z).ok s.maxw.toNat :=
  ⟨⟨signWord_cases z, getLast_mkInt_ne z⟩, by simpa using (fits_iff s z).1 h⟩

/-- Settles O30: a held Integer has at most MAXW words, and `mkInt` of a number of the range has no more. -/
theorem integerRegistersHoldExactlyTheirRange : Obligations.IntegerRegistersHoldExactlyTheirRange :=
  ⟨fits_of_holdsInt, fun s z h => ⟨mkInt z, isInt_mkInt z, mkInt_ok s z h⟩⟩

end Sys2Proof.Machine
end

section
/-! The decimal text of a number: it is made of decimal digits, denotes the number, and is as long as the number of digits
(R230, R232, R233). -/

namespace Sys2Proof.Machine

/-- A code whose value is below ten is a decimal digit, not the code of `-`. -/
theorem ne_minusCode_of_digitval_lt (c : Byte) (h : digitval c < 10) : c ≠ minusCode := by
  rintro rfl
  exact absurd h (by decide)

theorem digitval_digitCode (n : Nat) (h : n < 10) : digitval (digitCode n) = n := by
  have key : ∀ k : Fin 10, digitval (digitCode k) = k := by decide
  exact key ⟨n, h⟩

theorem digitsVal_append_singleton (r : Nat) (t : List Byte) (c : Byte) :
    digitsVal r (t ++ [c]) = digitsVal r t * r + digitval c := by
  simp [digitsVal]

theorem decDigits_succ_of_lt (fuel n : Nat) (h : n < 10) : decDigits (fuel + 1) n = [digitCode n] := by
  simp [decDigits, h]

theorem decDigits_succ_of_le (fuel n : Nat) (h : 10 ≤ n) :
    decDigits (fuel + 1) n = decDigits fuel (n / 10) ++ [digitCode (n % 10)] := by
  simp [decDigits, Nat.not_lt.2 h]

theorem digitval_lt_of_mem_decDigits (fuel n : Nat) (c : Byte) (hc : c ∈ decDigits fuel n) : digitval c < 10 := by
  induction fuel generalizing n with
  | zero => simp [decDigits] at hc
  | succ fuel ih =>
    rcases Nat.lt_or_ge n 10 with h | h
    · rw [decDigits_succ_of_lt _ _ h, List.mem_singleton] at hc
      rw [hc, digitval_digitCode _ h]
      exact h
    · rw [decDigits_succ_of_le _ _ h, List.mem_append, List.mem_singleton] at hc
      rcases hc with hc | rfl
      · exact ih _ hc
      · rw [digitval_digitCode _ (Nat.mod_lt _ (by norm_num))]
        exact Nat.mod_lt _ (by norm_num)

/-- With fuel for its binary digits, a number's decimal digits denote it. -/
theorem digitsVal_decDigits (fuel n : Nat) (h : n < 2 ^ fuel) : digitsVal 10 (decDigits fuel n) = n := by
  induction fuel generalizing n with
  | zero => simp [decDigits, digitsVal, Nat.lt_one_iff.1 h]
  | succ fuel ih =>
    rcases Nat.lt_or_ge n 10 with hn | hn
    · simp [decDigits_succ_of_lt _ _ hn, digitsVal, digitval_digitCode _ hn]
    · rw [decDigits_succ_of_le _ _ hn, digitsVal_append_singleton, ih _ (by rw [pow_succ] at h; omega),
        digitval_digitCode _ (Nat.mod_lt _ (by norm_num))]
      omega

theorem length_decDigits_le (fuel n k : Nat) (h : n < 10 ^ (k + 1)) : (decDigits fuel n).length ≤ k + 1 := by
  induction fuel generalizing n k with
  | zero => simp [decDigits]
  | succ fuel ih =>
    rcases Nat.lt_or_ge n 10 with hn | hn
    · simp [decDigits_succ_of_lt _ _ hn]
    · cases k with
      | zero => omega
      | succ k =>
        have := ih (n / 10) k (by rw [pow_succ] at h; omega)
        simpa [decDigits_succ_of_le _ _ hn] using this

theorem digitval_lt_of_mem_decNat (n : Nat) (c : Byte) (hc : c ∈ decNat n) : digitval c < 10 :=
  digitval_lt_of_mem_decDigits _ n c hc

theorem digitsVal_decNat (n : Nat) : digitsVal 10 (decNat n) = n := digitsVal_decDigits _ n Nat.lt_log2_self

theorem decNat_ne_nil (n : Nat) : decNat n ≠ [] := by
  unfold decNat
  rcases Nat.lt_or_ge n 10 with h | h
  · simp [decDigits_succ_of_lt _ _ h]
  · simp [decDigits_succ_of_le _ _ h]

theorem minusCode_notMem_decNat (n : Nat) : minusCode ∉ decNat n := fun h =>
  ne_minusCode_of_digitval_lt _ (digitval_lt_of_mem_decNat n _ h) rfl

theorem head_decNat_ne_minusCode (n : Nat) : (decNat n).head? ≠ some minusCode := fun h =>
  minusCode_notMem_decNat n (List.mem_of_mem_head? h)

/-- The decimal text of a number below `10^k` in magnitude, with its sign, has at most `k + 1` codes. -/
theorem length_dec_le (z : Int) (k : Nat) (hk : 1 ≤ k) (h : z.natAbs < 10 ^ k) : (dec z).length ≤ k + 1 := by
  obtain ⟨k, rfl⟩ := Nat.exists_eq_add_of_le' hk
  have := length_decDigits_le (z.natAbs.log2 + 1) z.natAbs k h
  unfold dec decNat
  split <;> simp <;> omega

/-- A text whose body is nonempty and made of decimal digits parses, in radix 10, to the number they denote, with its sign. -/
theorem parse_ten_of_digits (t : List Byte) (hne : parseBody t ≠ []) (hd : ∀ c ∈ parseBody t, digitval c < 10) :
    parse t 10 = .ok (if t.head? = some minusCode then -((digitsVal 10 (parseBody t) : Nat) : Int)
      else ((digitsVal 10 (parseBody t) : Nat) : Int)) := by
  have hminus : ¬ (parseBody t).contains minusCode = true := by
    rw [List.contains_iff_mem]
    exact fun h => ne_minusCode_of_digitval_lt _ (hd _ h) rfl
  have hdigit : ¬ (parseBody t).any (fun c => decide (10 ≤ digitval c)) = true := by
    simpa using hd
  unfold parse
  rw [if_neg (by norm_num), if_neg hne, if_neg hminus, if_neg hdigit]
  split <;> rfl

/-- Parsing the decimal text of a number gives the number back (R232, R233). -/
theorem parse_dec (z : Int) : parse (dec z) 10 = .ok z := by
  rcases lt_or_ge z 0 with hz | hz
  · have hdec : dec z = minusCode :: decNat z.natAbs := if_pos hz
    have hbody : parseBody (dec z) = decNat z.natAbs := by simp [hdec, parseBody]
    rw [parse_ten_of_digits _ (hbody ▸ decNat_ne_nil _) (hbody ▸ digitval_lt_of_mem_decNat _), hbody, digitsVal_decNat,
      hdec, List.head?_cons, if_pos rfl]
    congr 1
    omega
  · have hdec : dec z = decNat z.natAbs := if_neg (not_lt.2 hz)
    have hhead := head_decNat_ne_minusCode z.natAbs
    have hbody : parseBody (dec z) = decNat z.natAbs := by rw [hdec, parseBody, if_neg hhead]
    rw [parse_ten_of_digits _ (hbody ▸ decNat_ne_nil _) (hbody ▸ digitval_lt_of_mem_decNat _), hbody, digitsVal_decNat,
      hdec, if_neg hhead, Int.natAbs_of_nonneg hz]

/-- The text that TOSTR leaves in a buffer of canonical form is the one it wrote. -/
theorem text_complete_putText (s : State) (t : List Byte) (h : Memory.wf s.strbuf) : (s.putText t).complete.text = t :=
  text_setText s t h

/-- TOSTR.I on a held Integer writes its decimal text. -/
theorem exec_tostrI_of_holdsInt (s : State) (a : Reg) (z : Int) (h : HoldsInt s a z) :
    exec (.tostrI a) s = .next (s.putText (dec z)).complete := by
  simp [exec_eq_finish, effect, (readInt_eq_ok s a z).2 h, bind, Except.bind]

/-- PARSE.I of a text that denotes a number that fits gives the number. -/
theorem givesInt_parseI (s : State) (d : Reg) (r : Nat) (z : Int) (hp : parse s.text r = .ok z) (hf : Fits s z) :
    GivesInt (.parseI d r) s d z := by
  refine ⟨mkInt z, isInt_mkInt z, ?_⟩
  simp only [exec_eq_finish, effect, hp, bind, Except.bind, writeInt_of_fits s d z hf, finish_ok]
  rfl

/-- Settles O58: TOSTR.I leaves the text `dec z`, which parses to `z`, and a held Integer fits. -/
theorem parseAfterTostrGivesTheValueBack : Obligations.ParseAfterTostrGivesTheValueBack := by
  unfold Obligations.ParseAfterTostrGivesTheValueBack
  intro s t d a z hs hz hexec
  rw [exec_tostrI_of_holdsInt s a z hz, Host.Outcome.next.injEq] at hexec
  subst hexec
  refine givesInt_parseI _ d 10 z ?_ (fits_of_holdsInt s a z hs hz)
  rw [text_complete_putText s _ hs.bufferForm]
  exact parse_dec z

end Sys2Proof.Machine
end

section
/-! What the buffered writes of a command can be, said once for all commands: at most a destination register, the result words,
the compare result or the text (R26, R31, R35, R39, R41). -/

namespace Sys2Proof.Machine

/-- A value a command may write to its destination: a Long, the canonical Integer of a number that fits, or that of an Integer
a register holds already (MOV.I has no capacity test, R124). -/
inductive Written (s : State) : Value → Prop where
  | long (low high : Word) : Written s (.long low high)
  | int (z : Int) (hfits : Fits s z) : Written s (mkInt z)
  | copy (a : Reg) (z : Int) (hheld : HoldsInt s a z) : Written s (mkInt z)

/-- `t` is `s` with a value that a command may write in register `d`. -/
def WritesReg (s : State) (d : Reg) (t : State) : Prop := ∃ v, Written s v ∧ t = s.setReg d v

/-- The states that the buffered writes of the command `i` can make of `s`. -/
inductive Writes (i : Instr) (s : State) : State → Prop where
  | nothing (hi : i = .nop) : Writes i s s
  | reg (d : Reg) (v : Value) (hd : destination i = some d) (hv : Written s v) : Writes i s (s.setReg d v)
  | regRes (d : Reg) (v : Value) (lo hi : Word) (hd : destination i = some d) (hv : Written s v)
      (hres : writesResult i = true) : Writes i s ((s.setReg d v).setRes lo hi)
  | res (lo hi : Word) (hres : writesResult i = true) : Writes i s (s.setRes lo hi)
  | compare (p q : Int) (hres : writesResult i = true) (hcmp : writesCompare i = true) :
      Writes i s (s.setCompare (compareResult p q))
  | clear (hi : i = .sclr) : Writes i s { s with strlen := 0 }
  | append (hi : i = .sput) (hroom : s.strlen ≠ s.strcap.toNat) : Writes i s { s with
      strbuf := Memory.write s.strbuf s.strlen (s.aLo.extractLsb' 0 8)
      strlen := s.strlen + 1 }
  | intText (a : Reg) (z : Int) (hi : i = .tostrI a) (hheld : HoldsInt s a z) : Writes i s (s.putText (dec z))
  | longText (a : Reg) (z : Int) (hi : i = .tostrL a) (hheld : HoldsLong s a z) : Writes i s (s.putText (dec z))

/-- A test that raises an error was not met if the command answers. -/
theorem not_of_ite_error_eq_ok {c : Prop} [Decidable c] {e : Err} {x : Except Err State} {t : State}
    (h : (if c then .error e else x) = .ok t) : ¬c ∧ x = .ok t := by
  split at h
  · cases h
  · exact ⟨‹_›, h⟩

section Shapes
variable {s t : State} {d a b : Reg}

theorem writesReg_of_writeInt {z : Int} (h : s.writeInt d z = .ok t) : WritesReg s d t := by
  obtain ⟨hf, rfl⟩ := writeInt_eq_ok h
  exact ⟨_, .int z hf, rfl⟩

theorem writesReg_of_setReg_long {low high : Word} (h : (.ok (s.setReg d (.long low high)) : Except Err State) = .ok t) :
    WritesReg s d t := by
  obtain rfl := Except.ok.inj h
  exact ⟨_, .long low high, rfl⟩

theorem writesReg_of_writeLong {z : Int} (h : (.ok (s.writeLong d z) : Except Err State) = .ok t) : WritesReg s d t :=
  writesReg_of_setReg_long h

theorem writesReg_of_intUnary {f : Int → Int} (h : intUnary s d a f = .ok t) : WritesReg s d t := by
  obtain ⟨z, -, h⟩ := bind_eq_ok h
  exact writesReg_of_writeInt h

theorem writesReg_of_longUnary {f : Int → Int} (h : longUnary s d a f = .ok t) : WritesReg s d t := by
  obtain ⟨z, -, h⟩ := bind_eq_ok h
  exact writesReg_of_writeLong h

theorem writesReg_of_intBinary {f : Int → Int → Int} (h : intBinary s d a b f = .ok t) : WritesReg s d t := by
  obtain ⟨p, -, h⟩ := bind_eq_ok h
  obtain ⟨q, -, h⟩ := bind_eq_ok h
  exact writesReg_of_writeInt h

theorem writesReg_of_longBinary {f : Int → Int → Int} (h : longBinary s d a b f = .ok t) : WritesReg s d t := by
  obtain ⟨p, -, h⟩ := bind_eq_ok h
  obtain ⟨q, -, h⟩ := bind_eq_ok h
  exact writesReg_of_writeLong h

theorem writesReg_of_intDivision {f : Int → Int → Int} (h : intDivision s d a b f = .ok t) : WritesReg s d t := by
  obtain ⟨p, -, h⟩ := bind_eq_ok h
  obtain ⟨q, -, h⟩ := bind_eq_ok h
  exact writesReg_of_writeInt (not_of_ite_error_eq_ok h).2

theorem writesReg_of_longDivision {f : Int → Int → Int} (h : longDivision s d a b f = .ok t) : WritesReg s d t := by
  obtain ⟨p, -, h⟩ := bind_eq_ok h
  obtain ⟨q, -, h⟩ := bind_eq_ok h
  exact writesReg_of_writeLong (not_of_ite_error_eq_ok h).2

theorem WritesReg.writes {i : Instr} (h : WritesReg s d t) (hd : destination i = some d) : Writes i s t := by
  obtain ⟨v, hv, rfl⟩ := h
  exact .reg d v hd hv

end Shapes

/-- What a command that answers can have written. -/
theorem effect_writes (i : Instr) (s t : State) (h : effect i s = .ok t) : Writes i s t := by
  cases i with
  | nop => obtain rfl := Except.ok.inj h; exact .nothing rfl
  | movI d a =>
    obtain ⟨z, hz, h⟩ := bind_eq_ok h
    obtain rfl := Except.ok.inj h
    exact .reg d _ rfl (.copy a z ((readInt_eq_ok s a z).1 hz))
  | ldiI d | ldpI d | ldnI d => exact (writesReg_of_writeInt h).writes rfl
  | ldiL d | ldnL d => exact (writesReg_of_writeLong h).writes rfl
  | ldpL d => exact (writesReg_of_setReg_long h).writes rfl
  | cvtI d a =>
    obtain ⟨z, -, h⟩ := bind_eq_ok h
    exact (writesReg_of_setReg_long h).writes rfl
  | wpushI d | cvtL d a | parseI d radix =>
    obtain ⟨z, -, h⟩ := bind_eq_ok h
    exact (writesReg_of_writeInt h).writes rfl
  | negI d a | notI d a | shlI d a sh | shrI d a sh => exact (writesReg_of_intUnary h).writes rfl
  | movL d a | negL d a | notL d a | shlL d a sh | shrL d a sh => exact (writesReg_of_longUnary h).writes rfl
  | addI d a b | subI d a b | mulI d a b | andI d a b | orI d a b | xorI d a b =>
    exact (writesReg_of_intBinary h).writes rfl
  | addL d a b | subL d a b | mulL d a b | andL d a b | orL d a b | xorL d a b =>
    exact (writesReg_of_longBinary h).writes rfl
  | quotI d a b | remI d a b | divI d a b | modI d a b => exact (writesReg_of_intDivision h).writes rfl
  | quotL d a b | remL d a b | divL d a b | modL d a b => exact (writesReg_of_longDivision h).writes rfl
  | rdwI a | rdwL a | lenI a | tonatI a | tonatL a =>
    obtain ⟨z, -, h⟩ := bind_eq_ok h
    obtain rfl := Except.ok.inj h
    exact .res _ _ rfl
  | sget =>
    obtain ⟨-, h⟩ := not_of_ite_error_eq_ok h
    obtain rfl := Except.ok.inj h
    exact .res _ _ rfl
  | cmpI a b | cmpL a b =>
    obtain ⟨p, -, h⟩ := bind_eq_ok h
    obtain ⟨q, -, h⟩ := bind_eq_ok h
    obtain rfl := Except.ok.inj h
    exact .compare p q rfl rfl
  | sgnI a | sgnL a =>
    obtain ⟨z, -, h⟩ := bind_eq_ok h
    obtain rfl := Except.ok.inj h
    exact .compare z 0 rfl rfl
  | sclr => obtain rfl := Except.ok.inj h; exact .clear rfl
  | sput =>
    obtain ⟨hroom, h⟩ := not_of_ite_error_eq_ok h
    obtain rfl := Except.ok.inj h
    exact .append rfl hroom
  | tostrI a =>
    obtain ⟨z, hz, h⟩ := bind_eq_ok h
    obtain rfl := Except.ok.inj h
    exact .intText a z rfl ((readInt_eq_ok s a z).1 hz)
  | tostrL a =>
    obtain ⟨z, hz, h⟩ := bind_eq_ok h
    obtain rfl := Except.ok.inj h
    exact .longText a z rfl ((readLong_eq_ok s a z).1 hz)
  | decd d | decf d =>
    obtain ⟨u, hu, h⟩ := bind_eq_ok h
    obtain ⟨v, hv, rfl⟩ := writesReg_of_writeInt hu
    obtain rfl := Except.ok.inj h
    exact .regRes d v _ _ rfl hv rfl

/-- The buffered writes of a command leave every register but its destination alone. -/
theorem Writes.reg_eq {i : Instr} {s t : State} {r : Reg} (h : Writes i s t) (hr : destination i ≠ some r) :
    t.reg r = s.reg r := by
  have hset (d : Reg) (v : Value) (hd : destination i = some d) : (s.setReg d v).reg r = s.reg r :=
    reg_setReg_other s d r v fun e => hr (e ▸ hd)
  cases h with
  | reg d v hd _ => exact hset d v hd
  | regRes d v lo hi hd _ _ => exact hset d v hd
  | nothing | res | compare | clear | append | intText | longText => rfl

/-- Settles O24: the buffered writes reach no other register, and an error completion writes none. -/
theorem onlyTheDestinationRegisterChanges : Obligations.OnlyTheDestinationRegisterChanges := by
  unfold Obligations.OnlyTheDestinationRegisterChanges
  intro i s t r h hr
  rcases exec_cases i s t h with ⟨u, hu, rfl⟩ | ⟨e, -, rfl⟩
  · exact (effect_writes i s u hu).reg_eq hr
  · rfl

end Sys2Proof.Machine
end

section
/-! The invariant: reset meets it, and each operation of the block keeps it (R11, R32, R35, R40, R41, R48). -/

namespace Sys2Proof.Machine

/-- The reset state of a block whose parameters are in range meets the invariant. -/
theorem inv_resetWith (maxw strcap : Word) (base : Nat) (h : Config.paramsOk maxw.toNat strcap.toNat) :
    (State.resetWith maxw strcap base).Inv where
  params := h
  regs r := by rw [reg_resetWith]; exact trivial
  textLength := Nat.zero_le _
  bufferForm := ⟨.nil, by simp [State.resetWith]⟩
  bufferRange := by simp [State.resetWith]
  noError _ := rfl
  errorCode h := by cases h
  errorIdle _ := rfl
  compare := by simp [State.resetWith]
  idle _ := ⟨rfl, rfl, rfl⟩

/-- The parameters of `State.reset` are in range. -/
theorem paramsOk_reset : Config.paramsOk Config.resetMaxw.toNat Config.resetStrcap.toNat := by
  unfold Config.paramsOk
  decide

/-- Settles O17: every field of the invariant holds at its reset value. -/
theorem resetMeetsTheInvariant : Obligations.ResetMeetsTheInvariant :=
  ⟨inv_resetWith, inv_resetWith _ _ _ paramsOk_reset⟩

theorem cmpField_compareResult_ne (p q : Int) : cmpField (compareResult p q) ≠ 0b10 := by
  unfold compareResult
  split
  · decide
  · split <;> decide

theorem err_code_range (e : Err) : 1 ≤ e.code.toNat ∧ e.code.toNat ≤ 11 := by
  cases e <;> decide

/-- The decimal text of an Integer that fits has room in the string buffer (R12). -/
theorem length_dec_le_strcap_of_fits {s : State} {z : Int} (hs : s.Inv) (h : Fits s z) :
    (dec z).length ≤ s.strcap.toNat := by
  obtain ⟨-, hcap, hpow⟩ := hs.params
  obtain ⟨hlo, hhi⟩ := h
  have := length_dec_le z (s.strcap.toNat - 1) (by omega) (by omega)
  omega

/-- The decimal text of a Long has room in the string buffer (R12). -/
theorem length_dec_le_strcap_of_holdsLong {s : State} {a : Reg} {z : Int} (hs : s.Inv) (h : HoldsLong s a z) :
    (dec z).length ≤ s.strcap.toNat := by
  obtain ⟨-, hcap, -⟩ := hs.params
  obtain ⟨low, high, -, rfl⟩ := h
  obtain ⟨hlo, hhi⟩ := longVal_range low high
  have := length_dec_le (longVal low high) 19 (by norm_num) (by unfold longMin longMax at *; omega)
  omega

section Operations
variable {s : State}

/-- What a command may write in a register is legal there. -/
theorem Written.ok {v : Value} (h : Written s v) (hs : s.Inv) : v.ok s.maxw.toNat := by
  cases h with
  | long => exact trivial
  | int z hfits => exact mkInt_ok s z hfits
  | copy a z hheld => exact mkInt_ok s z (fits_of_holdsInt s a z hs hheld)

theorem inv_setReg (hs : s.Inv) (d : Reg) (v : Value) (hv : v.ok s.maxw.toNat) : (s.setReg d v).Inv :=
  { hs with
    regs := fun r => by
      by_cases hr : r = d
      · rw [hr, reg_setReg_same]; exact hv
      · rw [reg_setReg_other s d r v hr]; exact hs.regs r }

theorem inv_setRes (hs : s.Inv) (lo hi : Word) : (s.setRes lo hi).Inv := { hs with }

theorem inv_setCompare (hs : s.Inv) (p q : Int) : (s.setCompare (compareResult p q)).Inv :=
  { hs with compare := cmpField_compareResult_ne p q }

theorem inv_clearText (hs : s.Inv) : ({ s with strlen := 0 } : State).Inv := { hs with textLength := Nat.zero_le _ }

theorem inv_appendText (hs : s.Inv) (b : Byte) (hroom : s.strlen ≠ s.strcap.toNat) :
    ({ s with strbuf := Memory.write s.strbuf s.strlen b, strlen := s.strlen + 1 } : State).Inv :=
  have hlt : s.strlen < s.strcap.toNat := lt_of_le_of_ne hs.textLength hroom
  { hs with
    textLength := hlt
    bufferForm := Memory.write_wf _ _ _ hs.bufferForm
    bufferRange := fun c hc => by
      rcases Memory.mem_write _ _ _ c hc with h | ⟨rfl, -⟩
      · exact hs.bufferRange c h
      · exact hlt }

theorem inv_putText (hs : s.Inv) (t : List Byte) (ht : t.length ≤ s.strcap.toNat) : (s.putText t).Inv :=
  { hs with
    textLength := ht
    bufferForm := Memory.writeAll_wf t _ _ hs.bufferForm
    bufferRange := fun c hc => by
      rcases Memory.mem_writeAll t _ _ c hc with h | ⟨-, h⟩
      · exact hs.bufferRange c h
      · exact h.trans_le (by simpa using ht) }

theorem inv_complete (hs : s.Inv) : s.complete.Inv :=
  { hs with
    errorIdle := fun _ => rfl
    idle := fun _ => ⟨rfl, rfl, rfl⟩ }

theorem inv_raise (hs : s.Inv) (e : Err) : (s.raise e).Inv :=
  { hs with
    noError := fun h => by cases h
    errorCode := fun _ => err_code_range e
    errorIdle := fun _ => rfl
    idle := fun _ => ⟨rfl, rfl, rfl⟩ }

/-- The buffered writes of a command keep the invariant. -/
theorem Writes.inv {i : Instr} {t : State} (h : Writes i s t) (hs : s.Inv) : t.Inv := by
  cases h with
  | nothing => exact hs
  | reg d v _ hv => exact inv_setReg hs d v (hv.ok hs)
  | regRes d v lo hi _ hv => exact inv_setRes (inv_setReg hs d v (hv.ok hs)) lo hi
  | res lo hi => exact inv_setRes hs lo hi
  | compare p q => exact inv_setCompare hs p q
  | clear => exact inv_clearText hs
  | append _ hroom => exact inv_appendText hs _ hroom
  | intText a z _ hheld => exact inv_putText hs _ (length_dec_le_strcap_of_fits hs (fits_of_holdsInt s a z hs hheld))
  | longText a z _ hheld => exact inv_putText hs _ (length_dec_le_strcap_of_holdsLong hs hheld)

variable {t : State}

theorem inv_exec (hs : s.Inv) (i : Instr) (h : exec i s = .next t) : t.Inv := by
  rcases exec_cases i s t h with ⟨u, hu, rfl⟩ | ⟨e, -, rfl⟩
  · exact inv_complete ((effect_writes i s u hu).inv hs)
  · exact inv_raise hs e

theorem inv_runCommand (hs : s.Inv) (h : runCommand s = .next t) : t.Inv := by
  unfold runCommand at h
  split at h
  · exact inv_exec hs _ h
  · obtain rfl := Host.Outcome.next.inj h
    exact inv_raise hs _

theorem inv_engineTurn (hs : s.Inv) (h : engineTurn s = .next t) : t.Inv := by
  unfold engineTurn at h
  split at h
  · exact inv_runCommand hs h
  · exact Host.Outcome.next.inj h ▸ hs

theorem inv_popTape (hs : s.Inv) : s.popTape.Inv := { hs with }

theorem inv_recordRead (hs : s.Inv) (v : Word) : (s.recordRead v).Inv := { hs with }

theorem inv_applyReset (hs : s.Inv) : s.applyReset.Inv := { inv_resetWith s.maxw s.strcap s.coreBase hs.params with }

/-- A command is accepted with ERR = 0 alone, so ERR = 1 still implies BUSY = 0 (R37, R40). -/
theorem inv_accept (hs : s.Inv) (herr : s.err = false) (c : Word) : (s.accept c).Inv :=
  { hs with
    errorIdle := fun h => absurd (herr.symm.trans h) Bool.false_ne_true
    idle := fun h => by cases h }

/-- The host's STATUS write clears ERR and ERRCODE together. -/
theorem inv_acknowledge (hs : s.Inv) (v : Word) : (s.acknowledge v).Inv := by
  have hcode : (s.acknowledge v).err = true → s.err = true ∧ (s.acknowledge v).errcode = s.errcode := by
    simp only [acknowledge_err, acknowledge_errcode]
    split <;> simp
  refine { hs with noError := ?_, errorCode := fun h => ?_, errorIdle := fun h => hs.errorIdle (hcode h).1 }
  · simp only [acknowledge_err, acknowledge_errcode]
    split
    · exact fun _ => rfl
    · exact hs.noError
  · rw [(hcode h).2]
    exact hs.errorCode (hcode h).1

theorem inv_windowWrite (hs : s.Inv) (off : Nat) (v : Word) : (s.windowWrite off v).Inv := by
  rcases windowWrite_cases s off v with h | ⟨-, herr, h⟩ | h | h | h | h <;> rw [h]
  · exact { hs with }
  · exact inv_accept hs herr v
  · exact { hs with }
  · exact { hs with }
  · exact inv_acknowledge hs v
  · exact hs

theorem inv_hostWrite (hs : s.Inv) (addr bytes : Nat) (v : Word) (h : hostWrite s addr bytes v = .next t) : t.Inv := by
  obtain ⟨-, -, rfl⟩ := hostWrite_next s t addr bytes v h
  exact inv_windowWrite hs _ v

theorem inv_hostRead (hs : s.Inv) (addr bytes : Nat) (h : hostRead s addr bytes = .next t) : t.Inv := by
  obtain ⟨-, -, rfl⟩ := hostRead_next s t addr bytes h
  exact inv_recordRead hs _

/-- A poll lets a command in flight complete, and reads STATUS with none in flight (log 9). -/
theorem eventTurn_poll (s : State) :
    eventTurn .poll s = if s.busy then runCommand s else .next (s.popTape.recordRead s.statusWord) := rfl

theorem inv_eventTurn (hs : s.Inv) (e : Event) (h : eventTurn e s = .next t) : t.Inv := by
  cases e with
  | write addr bytes v => exact inv_hostWrite (inv_popTape hs) addr bytes v h
  | read addr bytes => exact inv_hostRead (inv_popTape hs) addr bytes h
  | poll =>
    rw [eventTurn_poll] at h
    split at h
    · exact inv_runCommand hs h
    · exact Host.Outcome.next.inj h ▸ inv_recordRead (inv_popTape hs) _
  | engine => exact inv_engineTurn (inv_popTape hs) h
  | reset => exact Host.Outcome.next.inj h ▸ inv_applyReset (inv_popTape hs)

end Operations

/-- Settles O18: the engine's turn and each event of the tape keep the invariant. -/
theorem everyStepKeepsTheInvariant : Obligations.EveryStepKeepsTheInvariant := by
  unfold Obligations.EveryStepKeepsTheInvariant
  intro s t hs h
  unfold step at h
  split at h
  · exact inv_engineTurn hs h
  · exact inv_eventTurn hs _ h

end Sys2Proof.Machine
end

section
/-! A command in flight ends: every step of a busy block with defined accesses answers, and either ends the command or takes one
event off the tape (R14, R311; log 1). -/

namespace Sys2Proof.Machine

theorem exec_completes (i : Instr) (s : State) : ∃ t, exec i s = .next t ∧ t.busy = false := by
  rw [exec_eq_finish]
  cases effect i s with
  | ok u => exact ⟨u.complete, rfl, rfl⟩
  | error e => exact ⟨s.raise e, rfl, rfl⟩

theorem runCommand_completes (s : State) : ∃ t, runCommand s = .next t ∧ t.busy = false := by
  unfold runCommand
  split
  · exact exec_completes _ s
  · exact ⟨s.raise .illegal, rfl, rfl⟩

theorem engineTurn_of_busy (s : State) (h : s.busy = true) : engineTurn s = runCommand s := if_pos h

theorem hostRead_of_defined (s : State) (addr bytes : Nat) (hw : s.inWindow addr = true)
    (hd : s.definedAccess addr bytes = true) :
    hostRead s addr bytes = .next (s.recordRead (s.windowRead (addr - s.coreBase))) := by
  simp [hostRead, hw, hd]

theorem hostWrite_of_defined (s : State) (addr bytes : Nat) (v : Word) (hw : s.inWindow addr = true)
    (hd : s.definedAccess addr bytes = true) :
    hostWrite s addr bytes v = .next (s.windowWrite (addr - s.coreBase) v) := by
  simp [hostWrite, hw, hd]

/-- A window write ends no command, and changes neither the tape nor the window's place. -/
theorem windowWrite_frame (s : State) (off : Nat) (v : Word) (h : s.busy = true) :
    (s.windowWrite off v).busy = true ∧ (s.windowWrite off v).tape = s.tape ∧
      (s.windowWrite off v).coreBase = s.coreBase := by
  rcases windowWrite_cases s off v with e | ⟨-, -, e⟩ | e | e | e | e <;> rw [e] <;> exact ⟨by simp [h], rfl, rfl⟩

/-- Whether an event is a defined access depends on the window's place alone. -/
theorem definedEvent_congr {s t : State} (e : Event) (h : t.coreBase = s.coreBase) : DefinedEvent t e ↔ DefinedEvent s e := by
  cases e <;> simp [DefinedEvent, State.inWindow, State.definedAccess, h]

/-- A defined event at a busy block ends the command, or leaves it in flight with one event less on the tape. -/
theorem eventTurn_of_busy (s : State) (e : Event) (hbusy : s.busy = true) (he : DefinedEvent s e) :
    ∃ t, eventTurn e s = .next t ∧
      (t.busy = false ∨ (t.busy = true ∧ t.tape = s.tape.tail ∧ t.coreBase = s.coreBase)) := by
  have hpop : s.popTape.busy = true := hbusy
  cases e with
  | write addr bytes v =>
    obtain ⟨hw, hd⟩ := he
    exact ⟨_, hostWrite_of_defined s.popTape addr bytes v hw hd, .inr (windowWrite_frame s.popTape _ v hpop)⟩
  | read addr bytes =>
    obtain ⟨hw, hd⟩ := he
    exact ⟨_, hostRead_of_defined s.popTape addr bytes hw hd, .inr ⟨hpop, rfl, rfl⟩⟩
  | poll =>
    obtain ⟨t, ht, hidle⟩ := runCommand_completes s
    exact ⟨t, by rw [eventTurn_poll, if_pos hbusy, ht], .inl hidle⟩
  | engine =>
    obtain ⟨t, ht, hidle⟩ := runCommand_completes s.popTape
    exact ⟨t, (engineTurn_of_busy _ hpop).trans ht, .inl hidle⟩
  | reset => exact ⟨_, rfl, .inl rfl⟩

/-- A run goes on from the state its first step answers. -/
theorem run_succ_of_step (M : Host.Core) (k : Nat) {s t : M.State} (h : M.step s = .next t) :
    M.run (k + 1) s = M.run k t := by
  rw [Host.Core.run, h]

/-- Settles O20, by induction on the tape: each of its events ends the command or is used up, and at its end the engine moves. -/
theorem busyEndsWithinTheTape : Obligations.BusyEndsWithinTheTape := by
  unfold Obligations.BusyEndsWithinTheTape
  intro s hbusy hdef
  induction htape : s.tape generalizing s with
  | nil =>
    obtain ⟨t, ht, hidle⟩ := runCommand_completes s
    have hstep : step s = .next t := by simp only [step, htape, engineTurn_of_busy s hbusy, ht]
    exact ⟨1, t, le_rfl, run_succ_of_step core 0 hstep, hidle⟩
  | cons e rest ih =>
    obtain ⟨t, ht, hcases⟩ := eventTurn_of_busy s e hbusy (hdef e (by simp [htape]))
    have hstep : step s = .next t := by simp only [step, htape, ht]
    rcases hcases with hidle | ⟨hbusy', htail, hbase⟩
    · exact ⟨1, t, by simp, run_succ_of_step core 0 hstep, hidle⟩
    · have hrest : t.tape = rest := by rw [htail, htape, List.tail_cons]
      have hdef' : ∀ e ∈ t.tape, DefinedEvent t e := fun e he =>
        (definedEvent_congr e hbase).2 (hdef e (by rw [htape]; exact List.mem_cons_of_mem _ (hrest ▸ he)))
      obtain ⟨k, u, hk, hrun, hidle⟩ := ih t hbusy' hdef' hrest
      exact ⟨k + 1, u, by simpa using hk, (run_succ_of_step core k hstep).trans hrun, hidle⟩

end Sys2Proof.Machine
end

section
/-! The bitwise operations: an integer is its bits, each operation works on them one by one, and bit `k` of a stored Integer is
bit `k % 32` of its word `k / 32`, so the word-by-word datapath computes the operations (R24, R210). -/

namespace Sys2Proof.Machine

/-- A bit of an integer as R24 says it is Mathlib's `Int.testBit`. -/
theorem intBit_eq_testBit (z : Int) (k : Nat) : intBit z k = z.testBit k := by
  cases z with
  | ofNat m =>
    rw [intBit, Int.testBit, Nat.testBit_eq_decide_div_mod_eq, Int.ofNat_eq_natCast, ← Int.natCast_ediv, Bool.eq_iff_iff]
    simp only [beq_iff_eq, decide_eq_true_eq]
    omega
  | negSucc m =>
    have hdiv : Int.negSucc m / ((2 ^ k : Nat) : Int) = -(((m / 2 ^ k : Nat) : Int) + 1) :=
      Int.negSucc_ediv m (by positivity)
    rw [intBit, Int.testBit, Nat.testBit_eq_decide_div_mod_eq, hdiv, Bool.eq_iff_iff]
    simp only [beq_iff_eq, Bool.not_eq_true', decide_eq_false_iff_not]
    omega

/-- No two natural numbers have opposite bits everywhere: high up, both have 0. -/
theorem not_forall_testBit_eq_not (m n : Nat) : ¬∀ k, m.testBit k = !n.testBit k := by
  intro h
  have hm : m < 2 ^ max m n := (le_max_left m n).trans_lt Nat.lt_two_pow_self
  have hn : n < 2 ^ max m n := (le_max_right m n).trans_lt Nat.lt_two_pow_self
  simpa [Nat.testBit_lt_two_pow hm, Nat.testBit_lt_two_pow hn] using h (max m n)

/-- An integer is its bits (R24). -/
theorem intBit_ext {p q : Int} (h : ∀ k, intBit p k = intBit q k) : p = q := by
  simp only [intBit_eq_testBit] at h
  cases p with
  | ofNat m =>
    cases q with
    | ofNat n => exact congrArg Int.ofNat (Nat.eq_of_testBit_eq h)
    | negSucc n => exact absurd h (not_forall_testBit_eq_not m n)
  | negSucc m =>
    cases q with
    | ofNat n => exact absurd (fun k => (h k).symm) (not_forall_testBit_eq_not n m)
    | negSucc n => exact congrArg Int.negSucc (Nat.eq_of_testBit_eq fun k => Bool.not_inj (h k))

theorem natAndNot_eq_ldiff (m n : Nat) : natAndNot m n = Nat.ldiff m n := by
  refine Nat.eq_of_testBit_eq fun k => ?_
  rw [natAndNot, Nat.testBit_xor, Nat.testBit_and, Nat.testBit_ldiff]
  cases m.testBit k <;> cases n.testBit k <;> rfl

theorem land_eq (p q : Int) : land p q = Int.land p q := by
  cases p <;> cases q <;> simp [land, Int.land, natAndNot_eq_ldiff]

theorem lor_eq (p q : Int) : lor p q = Int.lor p q := by
  cases p <;> cases q <;> simp [lor, Int.lor, natAndNot_eq_ldiff]

theorem lxor_eq (p q : Int) : lxor p q = Int.xor p q := by
  cases p <;> cases q <;> rfl

theorem lnot_eq (z : Int) : lnot z = Int.lnot z := by
  cases z <;> simp only [lnot, Int.lnot, Int.ofNat_eq_natCast, Int.negSucc_eq] <;> omega

theorem intBit_land (p q : Int) (k : Nat) : intBit (land p q) k = (intBit p k && intBit q k) := by
  simp only [intBit_eq_testBit, land_eq, Int.testBit_land]

theorem intBit_lor (p q : Int) (k : Nat) : intBit (lor p q) k = (intBit p k || intBit q k) := by
  simp only [intBit_eq_testBit, lor_eq, Int.testBit_lor]

theorem intBit_lxor (p q : Int) (k : Nat) : intBit (lxor p q) k = (intBit p k ^^ intBit q k) := by
  simp only [intBit_eq_testBit, lxor_eq, Int.testBit_lxor]

theorem intBit_lnot (z : Int) (k : Nat) : intBit (lnot z) k = !intBit z k := by
  simp only [intBit_eq_testBit, lnot_eq, Int.testBit_lnot]

/-- The low 32 bits of `a + 2^32 * z` are those of the word `a`. -/
theorem intBit_word_add_low (a : Word) (z : Int) (k : Nat) (h : k < 32) :
    intBit (a.toNat + 2 ^ 32 * z) k = a.getLsbD k := by
  have hsplit : (2 : Int) ^ 32 = ((2 ^ k : Nat) : Int) * (2 * 2 ^ (31 - k)) := by
    rw [Nat.cast_pow, Nat.cast_ofNat, ← pow_succ', ← pow_add]
    congr 1
    omega
  have hdiv : ((a.toNat : Int) + 2 ^ 32 * z) / ((2 ^ k : Nat) : Int) =
      ((a.toNat / 2 ^ k : Nat) : Int) + 2 * (2 ^ (31 - k) * z) := by
    rw [hsplit, mul_assoc, Int.add_mul_ediv_left _ _ (by positivity), Int.natCast_ediv, mul_assoc]
  rw [intBit, BitVec.getLsbD, Nat.testBit_eq_decide_div_mod_eq, hdiv, Bool.eq_iff_iff]
  simp only [beq_iff_eq, decide_eq_true_eq]
  generalize a.toNat / 2 ^ k = q
  omega

/-- The bits of `a + 2^32 * z` from bit 32 on are those of `z`. -/
theorem intBit_word_add_high (a : Word) (z : Int) (k : Nat) : intBit (a.toNat + 2 ^ 32 * z) (k + 32) = intBit z k := by
  have ha := a.isLt
  have hdiv : ((a.toNat : Int) + 2 ^ 32 * z) / 2 ^ 32 = z := by omega
  have : ((2 ^ (k + 32) : Nat) : Int) = 2 ^ 32 * ((2 ^ k : Nat) : Int) := by push_cast; ring
  rw [intBit, this, ← Int.ediv_ediv_of_nonneg (by positivity), hdiv, intBit]

/-- The bits of a stored Integer without words are the sign. -/
theorem intBit_intVal_nil (sg : Word) (h : sg = 0 ∨ sg = signOnes) (k : Nat) :
    intBit (intVal [] sg) k = sg.getLsbD (k % 32) := by
  have hk : k % 32 < 32 := Nat.mod_lt _ (by norm_num)
  rcases h with rfl | rfl
  · have h0 : intVal [] 0 = 0 := by decide
    rw [h0, intBit_eq_testBit]
    simp [Int.testBit]
  · have h1 : intVal [] signOnes = Int.negSucc 0 := by decide
    have h2 : signOnes = BitVec.allOnes 32 := by decide
    rw [h1, intBit_eq_testBit, h2, BitVec.getLsbD_allOnes, decide_eq_true hk]
    simp [Int.testBit]

/-- Bit `k` of a stored Integer is bit `k % 32` of its word `k / 32`; a word at or beyond the stored length is
the sign word. -/
theorem intBit_intVal (w : List Word) (sg : Word) (h : sg = 0 ∨ sg = signOnes) (k : Nat) :
    intBit (intVal w sg) k = (w.getD (k / 32) sg).getLsbD (k % 32) := by
  induction w generalizing k with
  | nil => rw [intBit_intVal_nil sg h, List.getD_nil]
  | cons a t ih =>
    rw [intVal_cons]
    rcases Nat.lt_or_ge k 32 with hk | hk
    · rw [intBit_word_add_low a _ k hk, Nat.div_eq_of_lt hk, Nat.mod_eq_of_lt hk, List.getD_cons_zero]
    · obtain ⟨j, rfl⟩ := Nat.exists_eq_add_of_le' hk
      rw [intBit_word_add_high, ih, Nat.add_div_right _ (by norm_num), Nat.add_mod_right, List.getD_cons_succ]

theorem getBits_int_natCast (w : List Word) (sg : Word) (i : Nat) : getBits (.int w sg) i = w.getD i sg := by
  simp [getBits]

/-- A list of word indices read as integers, as a statement with `getBits` elaborates it. -/
theorem map_intRange {α : Type} (m : Nat) (f : Int → α) :
    List.map f (do let i ← List.range m; pure (i : Int)) = (List.range m).map fun i : Nat => f i := by
  rw [bind_pure_comp, List.map_eq_map, List.map_map]
  rfl

theorem getD_map_range {α : Type} (m i : Nat) (f : Nat → α) (d : α) (h : ∀ j, m ≤ j → f j = d) :
    ((List.range m).map f).getD i d = f i := by
  rcases Nat.lt_or_ge i m with hi | hi
  · simp [List.getD, hi]
  · simp [List.getD, Nat.not_lt.2 hi, h i hi]

/-- A word operation that acts bit by bit, applied word by word over the longer length and to the sign words, computes the
integer operation of the same bits (R210). -/
theorem intVal_wordwise (op : Word → Word → Word) (bitOp : Bool → Bool → Bool) (intOp : Int → Int → Int)
    (hop : ∀ u v j, (op u v).getLsbD j = bitOp (u.getLsbD j) (v.getLsbD j))
    (hint : ∀ p q k, intBit (intOp p q) k = bitOp (intBit p k) (intBit q k))
    (hsigns : ∀ u ∈ [0, signOnes], ∀ v ∈ [0, signOnes], op u v ∈ [0, signOnes])
    (w w' : List Word) (sg sg' : Word) (h : sg = 0 ∨ sg = signOnes) (h' : sg' = 0 ∨ sg' = signOnes) :
    intVal ((List.range (max w.length w'.length)).map fun i : Nat =>
        op (getBits (.int w sg) i) (getBits (.int w' sg') i)) (op sg sg')
      = intOp (intVal w sg) (intVal w' sg') := by
  have hsign : op sg sg' = 0 ∨ op sg sg' = signOnes := by
    simpa using hsigns sg (by simpa using h) sg' (by simpa using h')
  refine intBit_ext fun k => ?_
  simp only [getBits_int_natCast]
  rw [hint, intBit_intVal _ _ hsign, intBit_intVal w sg h, intBit_intVal w' sg' h', getD_map_range, hop]
  intro j hj
  rw [List.getD_eq_default _ _ ((le_max_left _ _).trans hj), List.getD_eq_default _ _ ((le_max_right _ _).trans hj)]

/-- Complementing every word and the sign word computes `lnot` (R217). -/
theorem intVal_not (w : List Word) (sg : Word) (h : sg = 0 ∨ sg = signOnes) :
    intVal (w.map fun u => ~~~u) (~~~sg) = lnot (intVal w sg) := by
  have hsign : ~~~sg = 0 ∨ ~~~sg = signOnes := by rcases h with rfl | rfl <;> decide
  refine intBit_ext fun k => ?_
  have hk : k % 32 < 32 := Nat.mod_lt _ (by norm_num)
  rw [intBit_lnot, intBit_intVal _ _ hsign, intBit_intVal w sg h, List.getD_map, BitVec.getLsbD_not]
  simp [hk]

/-- Settles O31: each word operation acts bit by bit, and the integers with those bits are `land`, `lor`, `lxor` and `lnot`. -/
theorem bitwiseUnitsWorkWordByWord : Obligations.BitwiseUnitsWorkWordByWord := by
  unfold Obligations.BitwiseUnitsWorkWordByWord
  refine ⟨fun w w' sg sg' h h' m hm => ?_,
    fun p q k => ⟨intBit_land p q k, intBit_lor p q k, intBit_lxor p q k, intBit_lnot p k⟩⟩
  subst hm
  simp only [map_intRange]
  refine ⟨?_, ?_, ?_, intVal_not w sg h⟩
  · exact intVal_wordwise (· &&& ·) (· && ·) land (fun _ _ _ => BitVec.getLsbD_and) intBit_land
      (by simp [signOnes]) w w' sg sg' h h'
  · exact intVal_wordwise (· ||| ·) (· || ·) lor (fun _ _ _ => BitVec.getLsbD_or) intBit_lor
      (by simp [signOnes]) w w' sg sg' h h'
  · exact intVal_wordwise (· ^^^ ·) (· ^^ ·) lxor (fun _ _ _ => BitVec.getLsbD_xor) intBit_lxor
      (by simp [signOnes]) w w' sg sg' h h'

end Sys2Proof.Machine
end

section
/-! The frame of a command: what its buffered writes, its completion and its error completion leave alone in the host side, the
result words, the compare result and the string buffer (R35, R38, R39, R41, R43, R45). -/

namespace Sys2Proof.Machine

/-- A command that answers has made its buffered writes and is over, or has recorded its error. -/
theorem exec_writes {i : Instr} {s t : State} (h : exec i s = .next t) :
    (∃ u, Writes i s u ∧ t = u.complete) ∨ (∃ e, t = s.raise e) := by
  rcases exec_cases i s t h with ⟨u, hu, rfl⟩ | ⟨e, -, rfl⟩
  · exact .inl ⟨u, effect_writes i s u hu, rfl⟩
  · exact .inr ⟨e, rfl⟩

/-- A part of the state that the buffered writes of a command leave alone, and that the end of a command does not touch, is as it
was after the command. -/
theorem exec_frame {α : Type} (part : State → α) {i : Instr} {s t : State} (h : exec i s = .next t)
    (hcomplete : ∀ u : State, part u.complete = part u) (hraise : ∀ e, part (s.raise e) = part s)
    (hwrites : ∀ u, Writes i s u → part u = part s) : part t = part s := by
  rcases exec_writes h with ⟨u, hu, rfl⟩ | ⟨e, rfl⟩
  · exact (hcomplete u).trans (hwrites u hu)
  · exact hraise e

/-- What belongs to the host's side and the surroundings: the argument registers, LOST, the parameters, the tape and the reads. -/
def State.hostSide (s : State) : Word × Word × Bool × Word × Word × Nat × List Event × List Word :=
  (s.argLo, s.argHi, s.lost, s.maxw, s.strcap, s.coreBase, s.tape, s.reads)

/-- RES_LO and RES_HI. -/
def State.resultWords (s : State) : Word × Word := (s.resLo, s.resHi)

section Frames
variable {i : Instr} {s t : State}

theorem Writes.hostSide_eq (h : Writes i s t) : t.hostSide = s.hostSide := by
  cases h <;> rfl

theorem Writes.result_eq (h : Writes i s t) (hi : writesResult i = false) : t.resultWords = s.resultWords := by
  cases h with
  | nothing | reg | clear | append => rfl
  | regRes _ _ _ _ _ _ hres | res _ _ hres | compare _ _ hres => cases hi.symm.trans hres
  | intText _ _ htext | longText _ _ htext => subst htext; cases hi

theorem Writes.cmp_eq (h : Writes i s t) (hi : writesCompare i = false) : t.cmp = s.cmp := by
  cases h with
  | compare _ _ _ hcmp => cases hi.symm.trans hcmp
  | nothing | reg | regRes | res | clear | append | intText | longText => rfl

theorem Writes.strlen_eq (h : Writes i s t) (hi : writesText i = false) : t.strlen = s.strlen := by
  cases h with
  | nothing | reg | regRes | res | compare => rfl
  | clear htext | append htext | intText _ _ htext | longText _ _ htext => subst htext; cases hi

/-- An entry that is neither the one SPUT appends nor one below the length of TOSTR's text reads as before. -/
theorem Writes.read_eq {k : Nat} (h : Writes i s t) (hput : i = .sput → k ≠ s.strlen)
    (htext : ∀ a, i = .tostrI a ∨ i = .tostrL a → t.strlen ≤ k) : Memory.read t.strbuf k = Memory.read s.strbuf k := by
  cases h with
  | nothing | reg | regRes | res | compare | clear => rfl
  | append hi => exact Memory.read_write_other _ _ _ _ (hput hi)
  | intText a z hi => exact Memory.read_writeAll_other _ _ _ _ (.inr (by simpa using htext a (.inl hi)))
  | longText a z hi => exact Memory.read_writeAll_other _ _ _ _ (.inr (by simpa using htext a (.inr hi)))

theorem exec_read_eq {k : Nat} (h : exec i s = .next t) (hput : i = .sput → k ≠ s.strlen)
    (htext : ∀ a, i = .tostrI a ∨ i = .tostrL a → t.strlen ≤ k) : Memory.read t.strbuf k = Memory.read s.strbuf k := by
  rcases exec_writes h with ⟨u, hu, rfl⟩ | ⟨e, rfl⟩
  · exact hu.read_eq hput htext
  · rfl

end Frames

/-- Settles O23: the buffered writes and the end of a command leave the host side alone. -/
theorem commandsLeaveTheHostSideAlone : Obligations.CommandsLeaveTheHostSideAlone := by
  unfold Obligations.CommandsLeaveTheHostSideAlone
  intro i s t h
  have hside : t.hostSide = s.hostSide :=
    exec_frame State.hostSide h (fun _ => rfl) (fun _ => rfl) (fun _ hu => hu.hostSide_eq)
  simpa [State.hostSide] using hside

/-- Settles O25: the writes to the result words and to CMP come with `writesResult` and `writesCompare`. -/
theorem resultAndCompareFrame : Obligations.ResultAndCompareFrame := by
  unfold Obligations.ResultAndCompareFrame
  refine fun i s t h => ⟨fun hi => Prod.mk.inj ?_, fun hi => ?_⟩
  · exact exec_frame State.resultWords h (fun _ => rfl) (fun _ => rfl) (fun _ hu => hu.result_eq hi)
  · exact exec_frame State.cmp h (fun _ => rfl) (fun _ => rfl) (fun _ hu => hu.cmp_eq hi)

/-- Settles O26: the entries a command writes are that at STRLEN for SPUT and those below the new length for TOSTR. -/
theorem stringBufferFrame : Obligations.StringBufferFrame := by
  unfold Obligations.StringBufferFrame
  intro i s t h
  refine ⟨fun hi => ⟨?_, fun k => exec_read_eq h ?_ ?_⟩, ?_, ?_, fun a ha k hk => ?_⟩
  · exact exec_frame State.strlen h (fun _ => rfl) (fun _ => rfl) (fun _ hu => hu.strlen_eq hi)
  · rintro rfl
    cases hi
  · rintro a (rfl | rfl) <;> cases hi
  · rintro rfl k
    exact exec_read_eq h (by simp) (by simp)
  · rintro rfl k hk
    exact exec_read_eq h (fun _ => hk) (by simp)
  · refine exec_read_eq h ?_ fun _ _ => hk
    rintro rfl
    simp at ha

end Sys2Proof.Machine
end

section
/-! The entries of the string buffer at and beyond STRLEN are unobservable: with two buffers of one text, every command reads,
tests and writes the same, and leaves two buffers of one text (R35, R50). -/

namespace Sys2Proof.Machine

/-- The same block with another string buffer. -/
def State.withBuffer (s : State) (m : Memory) : State := { s with strbuf := m }

/-- The buffer `m`, put in the place of that of `s`, holds the same text; both are in canonical form. -/
structure SameText (s : State) (m : Memory) : Prop where
  bufferForm : Memory.wf s.strbuf
  otherForm : Memory.wf m
  read_eq : ∀ k, k < s.strlen → Memory.read m k = Memory.read s.strbuf k

theorem SameText.text_eq {s : State} {m : Memory} (h : SameText s m) : (s.withBuffer m).text = s.text :=
  List.map_congr_left fun k hk => h.read_eq k (List.mem_range.1 hk)

/-- The same error, or two states that differ in the string buffer alone and have one text. -/
inductive Alike : Except Err State → Except Err State → Prop where
  | error (e : Err) : Alike (.error e) (.error e)
  | ok (s : State) (m : Memory) (h : SameText s m) : Alike (.ok s) (.ok (s.withBuffer m))

theorem Alike.bind {α : Type} (x : Except Err α) {f f' : α → Except Err State} (h : ∀ a, Alike (f a) (f' a)) :
    Alike (x >>= f) (x >>= f') := by
  cases x with
  | error e => exact .error e
  | ok a => exact h a

theorem Alike.andThen {x x' : Except Err State} {f : State → Except Err State} (h : Alike x x')
    (hf : ∀ t m, SameText t m → Alike (f t) (f (t.withBuffer m))) : Alike (x >>= f) (x' >>= f) := by
  cases h with
  | error e => exact .error e
  | ok t m ht => exact hf t m ht

theorem Alike.guard {c : Prop} [Decidable c] (e : Err) {x x' : Except Err State} (h : ¬c → Alike x x') :
    Alike (if c then .error e else x) (if c then .error e else x') := by
  split
  · exact .error e
  · exact h ‹_›

section Shapes
variable {s : State} {m : Memory}

theorem SameText.setReg (h : SameText s m) (d : Reg) (v : Value) :
    Alike (.ok (s.setReg d v)) (.ok ((s.withBuffer m).setReg d v)) :=
  .ok (s.setReg d v) m { h with }

theorem SameText.setRes (h : SameText s m) (lo hi : Word) :
    Alike (.ok (s.setRes lo hi)) (.ok ((s.withBuffer m).setRes lo hi)) :=
  .ok (s.setRes lo hi) m { h with }

theorem SameText.setCompare (h : SameText s m) (c : Int) :
    Alike (.ok (s.setCompare c)) (.ok ((s.withBuffer m).setCompare c)) :=
  .ok (s.setCompare c) m { h with }

theorem SameText.writeInt (h : SameText s m) (d : Reg) (z : Int) : Alike (s.writeInt d z) ((s.withBuffer m).writeInt d z) :=
  .guard .capacity fun _ => h.setReg d (mkInt z)

theorem SameText.writeLong (h : SameText s m) (d : Reg) (z : Int) :
    Alike (.ok (s.writeLong d z)) (.ok ((s.withBuffer m).writeLong d z)) :=
  h.setReg d (mkLong z)

/-- SCLR leaves the empty text in both buffers. -/
theorem SameText.clear (h : SameText s m) :
    Alike (.ok { s with strlen := 0 }) (.ok { s.withBuffer m with strlen := 0 }) :=
  .ok { s with strlen := 0 } m { h with read_eq := fun _ hk => absurd hk (Nat.not_lt_zero _) }

/-- SPUT writes the same entry of both buffers, the one that becomes visible. -/
theorem SameText.append (h : SameText s m) (b : Byte) :
    Alike (.ok { s with strbuf := Memory.write s.strbuf s.strlen b, strlen := s.strlen + 1 })
      (.ok { s.withBuffer m with strbuf := Memory.write m s.strlen b, strlen := s.strlen + 1 }) := by
  refine .ok { s with strbuf := Memory.write s.strbuf s.strlen b, strlen := s.strlen + 1 } _
    ⟨Memory.write_wf _ _ _ h.bufferForm, Memory.write_wf _ _ _ h.otherForm, fun k hk => ?_⟩
  rcases Nat.lt_succ_iff_lt_or_eq.1 hk with hlt | rfl
  · rw [Memory.read_write_other _ _ _ _ hlt.ne, Memory.read_write_other _ _ _ _ hlt.ne, h.read_eq k hlt]
  · rw [Memory.read_write_same _ _ _ h.bufferForm.1, Memory.read_write_same _ _ _ h.otherForm.1]

/-- TOSTR writes every visible entry of both buffers. -/
theorem SameText.putText (h : SameText s m) (t : List Byte) :
    Alike (.ok (s.putText t)) (.ok ((s.withBuffer m).putText t)) := by
  refine .ok (s.putText t) _
    ⟨Memory.writeAll_wf t _ 0 h.bufferForm, Memory.writeAll_wf t _ 0 h.otherForm, fun k hk => ?_⟩
  have hsame := Memory.read_writeAll_same t s.strbuf 0 k h.bufferForm hk
  have hother := Memory.read_writeAll_same t m 0 k h.otherForm hk
  rw [Nat.zero_add] at hsame hother
  exact hother.trans hsame.symm

variable (d a b : Reg)

theorem SameText.intUnary (h : SameText s m) (f : Int → Int) :
    Alike (intUnary s d a f) (intUnary (s.withBuffer m) d a f) :=
  .bind (s.readInt a) fun _ => h.writeInt d _

theorem SameText.longUnary (h : SameText s m) (f : Int → Int) :
    Alike (longUnary s d a f) (longUnary (s.withBuffer m) d a f) :=
  .bind (s.readLong a) fun _ => h.writeLong d _

theorem SameText.intBinary (h : SameText s m) (f : Int → Int → Int) :
    Alike (intBinary s d a b f) (intBinary (s.withBuffer m) d a b f) :=
  .bind (s.readInt a) fun _ => .bind (s.readInt b) fun _ => h.writeInt d _

theorem SameText.longBinary (h : SameText s m) (f : Int → Int → Int) :
    Alike (longBinary s d a b f) (longBinary (s.withBuffer m) d a b f) :=
  .bind (s.readLong a) fun _ => .bind (s.readLong b) fun _ => h.writeLong d _

theorem SameText.intDivision (h : SameText s m) (f : Int → Int → Int) :
    Alike (intDivision s d a b f) (intDivision (s.withBuffer m) d a b f) :=
  .bind (s.readInt a) fun _ => .bind (s.readInt b) fun _ => .guard _ fun _ => h.writeInt d _

theorem SameText.longDivision (h : SameText s m) (f : Int → Int → Int) :
    Alike (longDivision s d a b f) (longDivision (s.withBuffer m) d a b f) :=
  .bind (s.readLong a) fun _ => .bind (s.readLong b) fun _ => .guard _ fun _ => h.writeLong d _

/-- DECD and DECF write a mantissa and two result words. -/
theorem SameText.decompose (h : SameText s m) (z : Int) (lo hi : Word) :
    Alike (s.writeInt d z >>= fun t => .ok (t.setRes lo hi))
      ((s.withBuffer m).writeInt d z >>= fun t => .ok (t.setRes lo hi)) :=
  (h.writeInt d z).andThen fun _ _ ht => ht.setRes lo hi

end Shapes

/-- The buffered writes of a command, from two buffers of one text. -/
theorem effect_alike (i : Instr) {s : State} {m : Memory} (h : SameText s m) :
    Alike (effect i s) (effect i (s.withBuffer m)) := by
  cases i with
  | nop => exact .ok s m h
  | movI d a => exact .bind (s.readInt a) fun _ => h.setReg d _
  | ldiI d | ldpI d | ldnI d => exact h.writeInt d _
  | ldiL d | ldnL d => exact h.writeLong d _
  | ldpL d => exact h.setReg d _
  | wpushI d => exact .bind (s.readInt d) fun _ => h.writeInt d _
  | cvtI d a => exact .bind (s.readInt a) fun _ => h.setReg d _
  | cvtL d a => exact .bind (s.readLong a) fun _ => h.writeInt d _
  | negI d a | notI d a | shlI d a sh | shrI d a sh => exact h.intUnary d a _
  | movL d a | negL d a | notL d a | shlL d a sh | shrL d a sh => exact h.longUnary d a _
  | addI d a b | subI d a b | mulI d a b | andI d a b | orI d a b | xorI d a b => exact h.intBinary d a b _
  | addL d a b | subL d a b | mulL d a b | andL d a b | orL d a b | xorL d a b => exact h.longBinary d a b _
  | quotI d a b | remI d a b | divI d a b | modI d a b => exact h.intDivision d a b _
  | quotL d a b | remL d a b | divL d a b | modL d a b => exact h.longDivision d a b _
  | rdwI a | lenI a | tonatI a => exact .bind (s.readInt a) fun _ => h.setRes _ _
  | rdwL a | tonatL a => exact .bind (s.readLong a) fun _ => h.setRes _ _
  | cmpI a b => exact .bind (s.readInt a) fun _ => .bind (s.readInt b) fun _ => h.setCompare _
  | cmpL a b => exact .bind (s.readLong a) fun _ => .bind (s.readLong b) fun _ => h.setCompare _
  | sgnI a => exact .bind (s.readInt a) fun _ => h.setCompare _
  | sgnL a => exact .bind (s.readLong a) fun _ => h.setCompare _
  | sclr => exact h.clear
  | sput => exact .guard .strovf fun _ => h.append _
  | sget =>
    refine .guard .stridx fun hindex => ?_
    have hread := h.read_eq s.aLo.toNat (Nat.lt_of_not_le hindex)
    exact hread ▸ h.setRes _ _
  | parseI d radix =>
    have htext : effect (.parseI d radix) (s.withBuffer m) = parse s.text radix >>= (s.withBuffer m).writeInt d := by
      rw [← h.text_eq]; rfl
    rw [htext]
    exact .bind (parse s.text radix) fun _ => h.writeInt d _
  | tostrI a => exact .bind (s.readInt a) fun _ => h.putText _
  | tostrL a => exact .bind (s.readLong a) fun _ => h.putText _
  | decd d | decf d => exact h.decompose d _ _ _

/-- The end of a command: an error leaves both buffers as they were, and the buffered writes leave one text. -/
theorem Alike.finish {s : State} {m : Memory} {r r' : Except Err State} (h : SameText s m) (hr : Alike r r') :
    ∃ t m', finish s r = .next t ∧ finish (s.withBuffer m) r' = .next (t.withBuffer m') ∧ SameText t m' := by
  cases hr with
  | error e => exact ⟨s.raise e, m, rfl, rfl, { h with }⟩
  | ok u m' hu => exact ⟨u.complete, m', rfl, rfl, { hu with }⟩

/-- A command, run from two buffers of one text, gives states that differ in the string buffer alone and have one text. -/
theorem exec_withBuffer (i : Instr) {s : State} {m : Memory} (h : SameText s m) :
    ∃ t m', exec i s = .next t ∧ exec i (s.withBuffer m) = .next (t.withBuffer m') ∧ SameText t m' := by
  rw [exec_eq_finish, exec_eq_finish]
  exact (effect_alike i h).finish h

/-- Settles O28: the hypotheses say that the two buffers have one text, and a command keeps that. -/
theorem entriesBeyondTheTextAreUnobservable : Obligations.EntriesBeyondTheTextAreUnobservable := by
  unfold Obligations.EntriesBeyondTheTextAreUnobservable
  intro i s t t' m hs hm hread hexec hexec'
  obtain ⟨u, m', hu, hu', htext⟩ := exec_withBuffer i ⟨hs, hm, hread⟩
  obtain rfl := Host.Outcome.next.inj (hexec.symm.trans hu)
  obtain rfl := Host.Outcome.next.inj (hexec'.symm.trans hu')
  exact ⟨rfl, htext.text_eq⟩

end Sys2Proof.Machine
end

section
/-! The host's accesses and reset: what a step with a defined access at an offset of the window answers, the layout of STATUS,
and the state after reset (R36, R37, R40, R42, R45, R50, R72, R74). -/

namespace Sys2Proof.Machine

section Accesses
variable {s : State} {rest : List Event}

/-- With the first event taken off the tape, the rest is left. -/
theorem popTape_of_tape {e : Event} (h : s.tape = e :: rest) : s.popTape = { s with tape := rest } := by
  simp [State.popTape, h]

theorem step_of_tape {e : Event} (h : s.tape = e :: rest) : step s = eventTurn e s := by
  simp [step, h]

theorem inWindow_coreBase_add {off : Nat} (h : off < 64) : s.inWindow (s.coreBase + off) = true := by
  simp [State.inWindow, Config.windowBytes, h]

theorem definedAccess_coreBase_add {off : Nat} (h : off % 4 = 0) : s.definedAccess (s.coreBase + off) 4 = true := by
  simp [State.definedAccess, h]

/-- A word write at an aligned offset of the window. -/
theorem step_write (off : Nat) (v : Word) (h : s.tape = .write (s.coreBase + off) 4 v :: rest) (hoff : off < 64)
    (halign : off % 4 = 0) : step s = .next (State.windowWrite { s with tape := rest } off v) := by
  rw [step_of_tape h, ← popTape_of_tape h]
  have := hostWrite_of_defined s.popTape (s.coreBase + off) 4 v (inWindow_coreBase_add hoff)
    (definedAccess_coreBase_add halign)
  rwa [popTape_coreBase, Nat.add_sub_cancel_left] at this

theorem popTape_windowRead (off : Nat) : s.popTape.windowRead off = s.windowRead off := rfl

/-- A word read at an aligned offset of the window. -/
theorem step_read (off : Nat) (h : s.tape = .read (s.coreBase + off) 4 :: rest) (hoff : off < 64) (halign : off % 4 = 0) :
    step s = .next (State.recordRead { s with tape := rest } (s.windowRead off)) := by
  rw [step_of_tape h, ← popTape_of_tape h]
  have := hostRead_of_defined s.popTape (s.coreBase + off) 4 (inWindow_coreBase_add hoff)
    (definedAccess_coreBase_add halign)
  rwa [popTape_coreBase, Nat.add_sub_cancel_left, popTape_windowRead] at this

end Accesses

/-- The host's STATUS write, bit by bit (R45). -/
theorem acknowledge_eq (s : State) (v : Word) : s.acknowledge v = { s with
    err := s.err && !v.getLsbD 1
    errcode := if v.getLsbD 1 = true then 0 else s.errcode
    lost := s.lost && !v.getLsbD 2 } := by
  unfold State.acknowledge
  cases v.getLsbD 1 <;> cases v.getLsbD 2 <;> simp

theorem writeCmd_of_idle {s : State} (c : Word) (hbusy : s.busy = false) (herr : s.err = false) :
    s.writeCmd c = s.accept c := by
  simp [State.writeCmd, hbusy, herr]

theorem writeCmd_of_busy_or_err {s : State} (c : Word) (h : s.busy = true ∨ s.err = true) :
    s.writeCmd c = { s with lost := true } := by
  simp [State.writeCmd, h]

/-- Settles O8: CMD is offset 0; acceptance and loss are the two branches of `State.writeCmd`. -/
theorem cmdWriteIsAcceptedOrLost : Obligations.CmdWriteIsAcceptedOrLost := by
  unfold Obligations.CmdWriteIsAcceptedOrLost
  refine fun s c rest => ⟨fun htape hbusy herr => ?_, fun htape h => ?_, fun htape => ?_⟩
  · rw [step_write 0 c htape (by norm_num) rfl]
    exact congrArg Host.Outcome.next (writeCmd_of_idle c hbusy herr)
  · rw [step_write 0 c htape (by norm_num) rfl]
    exact congrArg Host.Outcome.next (writeCmd_of_busy_or_err c h)
  · exact step_read 0 htape (by norm_num) rfl

/-- Settles O9: the write reaches `State.acknowledge`, whatever BUSY is. -/
theorem statusWriteClearsWhatItsBitsSay : Obligations.StatusWriteClearsWhatItsBitsSay := by
  unfold Obligations.StatusWriteClearsWhatItsBitsSay
  intro s v rest htape
  rw [step_write 0x14 v htape (by norm_num) rfl]
  exact congrArg Host.Outcome.next (acknowledge_eq { s with tape := rest } v)

/-- The registers that a host can read, by offset, and what each returns (R36, R42, R43). -/
def State.readableRegisters (s : State) : List (Nat × Word) :=
  [(0x04, s.argLo), (0x08, s.argHi), (0x0C, s.resLo), (0x10, s.resHi), (0x14, s.statusWord),
    (0x18, (0x434F5245 : Word)), (0x1C, s.maxw), (0x20, s.strcap), (0x24, s.errcmd)]

theorem windowRead_of_readable (s : State) (p : Nat × Word) (hp : p ∈ s.readableRegisters) :
    p.1 < 64 ∧ p.1 % 4 = 0 ∧ s.windowRead p.1 = p.2 := by
  revert p
  simp [State.readableRegisters, State.windowRead, Config.idWord]

/-- Writes to ID, MAXW and STRCAP are ignored (R42, R43). -/
theorem windowWrite_of_constant (s : State) (v : Word) (off : Nat) (hoff : off ∈ [0x18, 0x1C, 0x20]) :
    off < 64 ∧ off % 4 = 0 ∧ s.windowWrite off v = s := by
  revert off
  simp [State.windowWrite]

/-- Settles O12: each readable register is one row of `State.windowRead`, and no row of `State.windowWrite` is a constant's. -/
theorem windowReadsReturnTheRegisters : Obligations.WindowReadsReturnTheRegisters := by
  unfold Obligations.WindowReadsReturnTheRegisters
  refine fun s rest => ⟨fun p hp htape => ?_, fun v off hoff htape => ?_⟩
  · obtain ⟨hlt, halign, hread⟩ := windowRead_of_readable s p hp
    rw [step_read p.1 htape hlt halign, hread]
    rfl
  · obtain ⟨hlt, halign, hwrite⟩ := windowWrite_of_constant { s with tape := rest } v off hoff
    rw [step_write off v htape hlt halign, hwrite]

/-- What the host's accesses never change: the value registers, the string buffer, RES, CMP and ERRCMD. -/
def State.values (s : State) : Vector Value 16 × Memory × Nat × Word × Word × BitVec 2 × Word :=
  (s.x, s.strbuf, s.strlen, s.resLo, s.resHi, s.cmp, s.errcmd)

theorem windowWrite_values (s : State) (off : Nat) (v : Word) : (s.windowWrite off v).values = s.values := by
  rcases windowWrite_cases s off v with h | ⟨-, -, h⟩ | h | h | h | h <;> rw [h] <;> rfl

theorem hostRead_values {s t : State} {addr bytes : Nat} (h : hostRead s addr bytes = .next t) : t.values = s.values := by
  obtain ⟨-, -, rfl⟩ := hostRead_next s t addr bytes h
  rfl

theorem hostWrite_values {s t : State} {addr bytes : Nat} {v : Word} (h : hostWrite s addr bytes v = .next t) :
    t.values = s.values := by
  obtain ⟨-, -, rfl⟩ := hostWrite_next s t addr bytes v h
  exact windowWrite_values s _ v

/-- Settles O27: a read records a word, and none of the cases of a window write touches a value. -/
theorem hostAccessesNeverTouchValues : Obligations.HostAccessesNeverTouchValues := by
  unfold Obligations.HostAccessesNeverTouchValues
  intro s t e rest htape hevent hstep
  rw [step_of_tape htape] at hstep
  have hvalues : t.values = s.popTape.values := by
    rcases hevent with ⟨addr, bytes, rfl | ⟨v, rfl⟩⟩
    · exact hostRead_values hstep
    · exact hostWrite_values hstep
  simpa [State.values] using hvalues

/-- Bits 3:0 of STATUS: a zero, LOST, ERR and BUSY (R40). -/
theorem getLsbD_statusWord_low (s : State) : s.statusWord.getLsbD 0 = s.busy ∧ s.statusWord.getLsbD 1 = s.err ∧
    s.statusWord.getLsbD 2 = s.lost ∧ s.statusWord.getLsbD 3 = false := by
  simp only [State.statusWord, BitVec.getLsbD_append]
  simp

/-- The bits of STATUS from bit 4 on: ERRCODE, CMP and zeros (R40). -/
theorem getLsbD_statusWord_high (s : State) (k : Nat) : s.statusWord.getLsbD (4 + k) =
    if k < 4 then s.errcode.getLsbD k else if k < 6 then s.cmp.getLsbD (k - 4) else false := by
  simp only [State.statusWord, BitVec.getLsbD_append, Nat.add_comm 4 k]
  simp [show k ≤ 5 ↔ k < 6 from Nat.lt_succ_iff.symm]

theorem extractLsb'_statusWord_errcode (s : State) : s.statusWord.extractLsb' 4 4 = s.errcode := by
  refine BitVec.eq_of_getLsbD_eq fun j hj => ?_
  simp [getLsbD_statusWord_high, hj]

theorem extractLsb'_statusWord_cmp (s : State) : s.statusWord.extractLsb' 8 2 = s.cmp := by
  refine BitVec.eq_of_getLsbD_eq fun j hj => ?_
  have hbit := getLsbD_statusWord_high s (4 + j)
  rw [if_neg (by omega), if_pos (by omega), Nat.add_sub_cancel_left, ← Nat.add_assoc] at hbit
  simpa [hj] using hbit

theorem getLsbD_statusWord_of_ge (s : State) (k : Nat) (h : 10 ≤ k) : s.statusWord.getLsbD k = false := by
  have hbit := getLsbD_statusWord_high s (k - 4)
  rwa [if_neg (by omega), if_neg (by omega), Nat.add_sub_cancel' (by omega)] at hbit

/-- Settles O13: the fields are read off the word bit by bit, and the two invariants are fields of `State.Inv`. -/
theorem statusWordShowsItsFields : Obligations.StatusWordShowsItsFields := by
  unfold Obligations.StatusWordShowsItsFields
  intro s
  obtain ⟨hbusy, herr, hlost, hzero⟩ := getLsbD_statusWord_low s
  refine ⟨hbusy, herr, hlost, hzero, extractLsb'_statusWord_errcode s, extractLsb'_statusWord_cmp s,
    getLsbD_statusWord_of_ge s, fun hs => ?_⟩
  rw [herr, hbusy, extractLsb'_statusWord_errcode]
  exact ⟨hs.noError, hs.errorIdle⟩

theorem statusWord_applyReset (s : State) : s.applyReset.statusWord = 0 := by
  simp [State.statusWord, State.applyReset, State.resetWith]

/-- Settles O16: `State.applyReset` is the reset state but for what it keeps. -/
theorem resetGivesTheResetState : Obligations.ResetGivesTheResetState := by
  unfold Obligations.ResetGivesTheResetState
  intro s rest htape
  exact ⟨s.popTape.applyReset, step_of_tape htape, reg_resetWith s.maxw s.strcap s.coreBase, rfl, rfl, rfl, rfl, rfl,
    statusWord_applyReset _, rfl, rfl, rfl, rfl, rfl, congrArg List.tail htape, rfl⟩

end Sys2Proof.Machine
end

section
/-! The host's accesses without effect: reads of CMD and of the reserved offsets, writes that the window ignores, and the
accesses that R72 refuses or that lie outside the window (R36, R71, R72, R74; logs 10 and 16). -/

namespace Sys2Proof.Machine

/-- CMD and the reserved offsets read 0 (R74). -/
theorem windowRead_of_reserved (s : State) (off : Nat) (h : off ∈ [0x00, 0x28, 0x2C, 0x30, 0x34, 0x38, 0x3C]) :
    off < 64 ∧ off % 4 = 0 ∧ s.windowRead off = 0 := by
  revert off
  simp [State.windowRead]

/-- The read-only registers and the reserved offsets ignore writes (R74). -/
theorem windowWrite_of_ignored (s : State) (v : Word) (off : Nat)
    (h : off ∈ [0x0C, 0x10, 0x18, 0x1C, 0x20, 0x24, 0x28, 0x2C, 0x30, 0x34, 0x38, 0x3C]) :
    off < 64 ∧ off % 4 = 0 ∧ s.windowWrite off v = s := by
  revert off
  simp [State.windowWrite]

/-- Settles O11: these offsets fall through to the last branch of `State.windowRead` and of `State.windowWrite`. -/
theorem reservedAndReadOnlyOffsets : Obligations.ReservedAndReadOnlyOffsets := by
  unfold Obligations.ReservedAndReadOnlyOffsets
  refine fun s v off rest => ⟨fun hoff htape => ?_, fun hoff htape => ?_⟩
  · obtain ⟨hlt, halign, hread⟩ := windowRead_of_reserved s off hoff
    rw [step_read off htape hlt halign, hread]
    rfl
  · obtain ⟨hlt, halign, hwrite⟩ := windowWrite_of_ignored { s with tape := rest } v off hoff
    rw [step_write off v htape hlt halign, hwrite]

theorem inWindow_iff {s : State} {addr : Nat} : s.inWindow addr = true ↔ s.coreBase ≤ addr ∧ addr < s.coreBase + 64 :=
  decide_eq_true_iff

theorem definedAccess_iff {s : State} {addr bytes : Nat} :
    s.definedAccess addr bytes = true ↔ bytes = 4 ∧ 4 ∣ addr - s.coreBase := by
  simp [State.definedAccess, Nat.dvd_iff_mod_eq_zero]

section Stops
variable {s : State} {addr bytes : Nat}

theorem hostRead_of_undefined (hw : s.inWindow addr = true) (hd : ¬s.definedAccess addr bytes = true) :
    hostRead s addr bytes = .refused (.unmodelledAccess addr bytes) := by
  rw [hostRead, if_pos hw, if_neg hd]

theorem hostWrite_of_undefined (v : Word) (hw : s.inWindow addr = true) (hd : ¬s.definedAccess addr bytes = true) :
    hostWrite s addr bytes v = .refused (.unmodelledAccess addr bytes) := by
  rw [hostWrite, if_pos hw, if_neg hd]

theorem hostRead_of_outside (bytes : Nat) (hw : ¬s.inWindow addr = true) :
    hostRead s addr bytes = .fault (.outsideWindow addr) := by
  rw [hostRead, if_neg hw]

theorem hostWrite_of_outside (bytes : Nat) (v : Word) (hw : ¬s.inWindow addr = true) :
    hostWrite s addr bytes v = .fault (.outsideWindow addr) := by
  rw [hostWrite, if_neg hw]

end Stops

/-- Settles O14: the address lies in the window, and the access is not a defined one. -/
theorem undefinedAccessIsRefused : Obligations.UndefinedAccessIsRefused := by
  unfold Obligations.UndefinedAccessIsRefused
  intro s addr bytes v rest hbase hend hundef
  have hw : s.popTape.inWindow addr = true := inWindow_iff.mpr ⟨hbase, hend⟩
  have hd : ¬s.popTape.definedAccess addr bytes = true := by rwa [definedAccess_iff, not_and_or]
  exact ⟨fun htape => (step_of_tape htape).trans (hostWrite_of_undefined v hw hd),
    fun htape => (step_of_tape htape).trans (hostRead_of_undefined hw hd)⟩

/-- Settles O15: only the first byte's address is compared with the window, and it lies on one side of it. -/
theorem accessOutsideTheWindowFaults : Obligations.AccessOutsideTheWindowFaults := by
  unfold Obligations.AccessOutsideTheWindowFaults
  intro s addr bytes v rest hside
  have hw : ¬s.popTape.inWindow addr = true := by rwa [inWindow_iff, not_and_or, not_le, not_lt]
  exact ⟨fun htape => (step_of_tape htape).trans (hostWrite_of_outside bytes v hw),
    fun htape => (step_of_tape htape).trans (hostRead_of_outside bytes hw)⟩

end Sys2Proof.Machine
end

section
/-! The fields of a command word: what the encoder's words hold, and what each must-be-zero mask asks of them (R90, R91, R92). -/

namespace Sys2Proof

/-- Z, bits 24:20 (R90). -/
def fieldZ (w : Word) : BitVec 5 := w.extractLsb' 20 5

/-- The bits of IMM8, bits 7:0, of which `fieldImm8` is the number (R90, R92). -/
def fieldLow (w : Word) : BitVec 8 := w.extractLsb' 0 8

@[simp] theorem toNat_fieldLow (w : Word) : (fieldLow w).toNat = fieldImm8 w := rfl

@[simp] theorem ofNat_fieldImm8 (w : Word) : BitVec.ofNat 8 (fieldImm8 w) = fieldLow w := BitVec.ofNat_toNat ..

theorem fieldImm8_lt (w : Word) : fieldImm8 w < 256 := BitVec.isLt _

theorem fieldShamt_lt (w : Word) : fieldShamt w < 4096 := BitVec.isLt _

theorem toNat_fieldOpcT (w : Word) : (fieldOpcT w).toNat = w.toNat / 2 ^ 25 := by
  have := w.isLt
  simp only [fieldOpcT, BitVec.extractLsb'_toNat, Nat.shiftRight_eq_div_pow]
  omega

theorem toNat_append_eq_add {n m : Nat} (x : BitVec n) (y : BitVec m) : (x ++ y).toNat = x.toNat * 2 ^ m + y.toNat := by
  rw [BitVec.toNat_append, ← Nat.shiftLeft_add_eq_or_of_lt y.isLt, Nat.shiftLeft_eq]

theorem toNat_encodeFields (o : BitVec 7) (d a b : Reg) (n : BitVec 8) : (encodeFields o d a b n).toNat =
    o.toNat * 2 ^ 25 + d.toNat * 2 ^ 16 + a.toNat * 2 ^ 12 + b.toNat * 2 ^ 8 + n.toNat :=
  (toNat_append_eq_add (o ++ 0#5 ++ d ++ a ++ b) n).trans (by simp only [toNat_append_eq_add, BitVec.toNat_ofNat]; ring)

theorem toNat_encodeShift (o : BitVec 7) (d a : Reg) (sh : Nat) : (encodeShift o d a sh).toNat =
    o.toNat * 2 ^ 25 + d.toNat * 2 ^ 16 + a.toNat * 2 ^ 12 + sh % 4096 :=
  (toNat_append_eq_add (o ++ 0#5 ++ d ++ a) (BitVec.ofNat 12 sh)).trans
    (by simp only [toNat_append_eq_add, BitVec.toNat_ofNat]; ring)

section Words
variable (w : Word)

/-- The encoder's word is the one word with these fields and Z = 0. -/
theorem encodeFields_eq_iff (o : BitVec 7) (d a b : Reg) (n : BitVec 8) : encodeFields o d a b n = w ↔
    fieldOpcT w = o ∧ fieldZ w = 0#5 ∧ fieldRd w = d ∧ fieldRa w = a ∧ fieldRb w = b ∧ fieldLow w = n := by
  have := o.isLt; have := d.isLt; have := a.isLt; have := b.isLt; have := n.isLt
  simp only [← BitVec.toNat_inj, toNat_encodeFields, fieldOpcT, fieldZ, fieldRd, fieldRa, fieldRb, fieldLow,
    BitVec.extractLsb'_toNat, BitVec.toNat_ofNat, Nat.shiftRight_eq_div_pow]
  omega

/-- The shift class, whose field SHAMT takes the place of RB and IMM8. -/
theorem encodeShift_eq_iff (o : BitVec 7) (d a : Reg) (sh : Nat) : encodeShift o d a sh = w ↔
    fieldOpcT w = o ∧ fieldZ w = 0#5 ∧ fieldRd w = d ∧ fieldRa w = a ∧ fieldShamt w = sh % 4096 := by
  have := o.isLt; have := d.isLt; have := a.isLt
  simp only [← BitVec.toNat_inj, toNat_encodeShift, fieldOpcT, fieldZ, fieldRd, fieldRa, fieldShamt,
    BitVec.extractLsb'_toNat, BitVec.toNat_ofNat, Nat.shiftRight_eq_div_pow]
  omega

theorem eq_zero_iff_fields : w = 0#32 ↔ fieldOpcT w = 0#7 ∧ fieldZ w = 0#5 ∧ fieldRd w = 0#4 ∧ fieldRa w = 0#4 ∧
    fieldRb w = 0#4 ∧ fieldLow w = 0#8 :=
  eq_comm.trans (encodeFields_eq_iff w 0#7 0#4 0#4 0#4 0#8)

theorem fieldOpcT_and (m : Word) : fieldOpcT (w &&& m) = fieldOpcT w &&& fieldOpcT m := BitVec.extractLsb'_and

theorem and_eq_zero_iff_fields (m : Word) : w &&& m = 0#32 ↔ fieldOpcT w &&& fieldOpcT m = 0#7 ∧
    fieldZ w &&& fieldZ m = 0#5 ∧ fieldRd w &&& fieldRd m = 0#4 ∧ fieldRa w &&& fieldRa m = 0#4 ∧
    fieldRb w &&& fieldRb m = 0#4 ∧ fieldLow w &&& fieldLow m = 0#8 := by
  rw [eq_zero_iff_fields]
  simp only [fieldOpcT, fieldZ, fieldRd, fieldRa, fieldRb, fieldLow, BitVec.extractLsb'_and]

@[simp] theorem and_ones4 (x : BitVec 4) : x &&& 15#4 = x := BitVec.and_allOnes
@[simp] theorem and_ones5 (x : BitVec 5) : x &&& 31#5 = x := BitVec.and_allOnes
@[simp] theorem and_ones8 (x : BitVec 8) : x &&& 255#8 = x := BitVec.and_allOnes

@[simp] theorem and_zeroNone : w &&& zeroNone = 0#32 ↔
    fieldZ w = 0#5 ∧ fieldRd w = 0#4 ∧ fieldRa w = 0#4 ∧ fieldRb w = 0#4 ∧ fieldLow w = 0#8 := by
  simp [and_eq_zero_iff_fields, zeroNone, fieldOpcT, fieldZ, fieldRd, fieldRa, fieldRb, fieldLow]

@[simp] theorem and_zeroRd : w &&& zeroRd = 0#32 ↔
    fieldZ w = 0#5 ∧ fieldRa w = 0#4 ∧ fieldRb w = 0#4 ∧ fieldLow w = 0#8 := by
  simp [and_eq_zero_iff_fields, zeroRd, fieldOpcT, fieldZ, fieldRd, fieldRa, fieldRb, fieldLow]

@[simp] theorem and_zeroRa : w &&& zeroRa = 0#32 ↔
    fieldZ w = 0#5 ∧ fieldRd w = 0#4 ∧ fieldRb w = 0#4 ∧ fieldLow w = 0#8 := by
  simp [and_eq_zero_iff_fields, zeroRa, fieldOpcT, fieldZ, fieldRd, fieldRa, fieldRb, fieldLow]

@[simp] theorem and_zeroRdRa : w &&& zeroRdRa = 0#32 ↔ fieldZ w = 0#5 ∧ fieldRb w = 0#4 ∧ fieldLow w = 0#8 := by
  simp [and_eq_zero_iff_fields, zeroRdRa, fieldOpcT, fieldZ, fieldRd, fieldRa, fieldRb, fieldLow]

@[simp] theorem and_zeroRaRb : w &&& zeroRaRb = 0#32 ↔ fieldZ w = 0#5 ∧ fieldRd w = 0#4 ∧ fieldLow w = 0#8 := by
  simp [and_eq_zero_iff_fields, zeroRaRb, fieldOpcT, fieldZ, fieldRd, fieldRa, fieldRb, fieldLow]

@[simp] theorem and_zeroRdRaRb : w &&& zeroRdRaRb = 0#32 ↔ fieldZ w = 0#5 ∧ fieldLow w = 0#8 := by
  simp [and_eq_zero_iff_fields, zeroRdRaRb, fieldOpcT, fieldZ, fieldRd, fieldRa, fieldRb, fieldLow]

@[simp] theorem and_zeroRdRaSh : w &&& zeroRdRaSh = 0#32 ↔ fieldZ w = 0#5 := by
  simp [and_eq_zero_iff_fields, zeroRdRaSh, fieldOpcT, fieldZ, fieldRd, fieldRa, fieldRb, fieldLow]

@[simp] theorem and_zeroRdImm : w &&& zeroRdImm = 0#32 ↔ fieldZ w = 0#5 ∧ fieldRa w = 0#4 ∧ fieldRb w = 0#4 := by
  simp [and_eq_zero_iff_fields, zeroRdImm, fieldOpcT, fieldZ, fieldRd, fieldRa, fieldRb, fieldLow]

end Words

end Sys2Proof
end

section
/-! Decode and encode are inverse to each other on the well-formed commands (R90, R91, R94). -/

namespace Sys2Proof.Machine

theorem checkZero_eq_ok_iff (w z : Word) (i j : Instr) : checkZero w z i = .ok j ↔ w &&& z = 0#32 ∧ i = j := by
  unfold checkZero
  split <;> simp_all

/-- Each command is read back from its word, since the word's fields are its operands. -/
theorem decode_encode (i : Instr) (hwf : i.wf = true) : decode (encode i) = .ok i := by
  generalize hw : encode i = w
  cases i with
  | shlI d a sh | shlL d a sh | shrI d a sh | shrL d a sh =>
    rw [encode, encodeShift_eq_iff, Nat.mod_eq_of_lt (of_decide_eq_true hwf)] at hw
    simp [decode, checkZero_eq_ok_iff, hw]
  | parseI d radix =>
    rw [encode, encodeFields_eq_iff] at hw
    obtain ⟨hop, hz, hd, ha, hb, himm⟩ := hw
    have hradix : fieldImm8 w = radix := by
      rw [← toNat_fieldLow, himm, BitVec.toNat_ofNat, Nat.mod_eq_of_lt (of_decide_eq_true hwf)]
    simp [decode, checkZero_eq_ok_iff, hop, hz, hd, ha, hb, hradix]
  | _ =>
    rw [encode, encodeFields_eq_iff] at hw
    simp [decode, checkZero_eq_ok_iff, hw]

/-- An accepted word is its command's: each operand is the word's field, and every other field is 0 by the class's mask. -/
theorem encode_of_decode {w : Word} {i : Instr} (h : decode w = .ok i) : encode i = w ∧ i.wf = true := by
  unfold decode at h
  split at h
  all_goals simp only [checkZero_eq_ok_iff, reduceCtorEq] at h
  all_goals
    rename_i hop
    obtain ⟨hz, rfl⟩ := h
    simpa [encode, encodeFields_eq_iff, encodeShift_eq_iff, hop, Instr.wf, shamtOk, imm8Ok, fieldShamt_lt, fieldImm8_lt,
      Nat.mod_eq_of_lt] using hz

/-- Settles O1: the fields of a command's word are the command's operands. -/
theorem decodeOfEncodeIsTheCommand : Obligations.DecodeOfEncodeIsTheCommand := decode_encode

/-- Settles O2: an accepted word has Z = 0 and no field but the operands, so they make it up. -/
theorem encodeOfDecodeIsTheWord : Obligations.EncodeOfDecodeIsTheWord := fun _ _ => encode_of_decode

end Sys2Proof.Machine
end

section
/-! The rows of the opcode map and the decoder: a row's words are its commands, and a command's word selects the command's row;
a word that selects none completes with ILLEGAL (R91, R94, R274). -/

namespace Sys2Proof.Machine

/-- Row by row: a word with the row's OPC and T and no other bit of the row's mask set is a command of the row. -/
theorem decode_of_row : ∀ row ∈ opcodeMap, ∀ w : Word,
    fieldOpcT w = fieldOpcT row.2.1 → w &&& (row.2.2 &&& 0x01FFFFFF) = 0#32 → ∃ i, decode w = .ok i ∧ mnemonic i = row.1 := by
  simp only [opcodeMap, List.cons_append, List.nil_append]
  repeat' refine List.forall_mem_cons.2 ⟨fun w hop hz => ⟨_, by rw [decode, hop]; exact if_pos hz, rfl⟩, ?_⟩
  exact List.forall_mem_nil _

/-- A row's mask holds OPC and T, and its match word has no other bit of the mask set. -/
theorem opcodeMap_masks :
    ∀ row ∈ opcodeMap, fieldOpcT row.2.2 = .allOnes 7 ∧ row.2.1 &&& 0x01FFFFFF = 0#32 := by decide

theorem decode_of_selects {w : Word} {row : String × Word × Word} (hrow : row ∈ opcodeMap)
    (h : w &&& row.2.2 = row.2.1) : ∃ i, decode w = .ok i ∧ mnemonic i = row.1 := by
  obtain ⟨hmask, hmatch⟩ := opcodeMap_masks row hrow
  refine decode_of_row row hrow w ?_ ?_
  · rw [← h, fieldOpcT_and, hmask, BitVec.and_allOnes]
  · rw [← BitVec.and_assoc, h, hmatch]

theorem mem_opcodeMap (i : Instr) : (mnemonic i, Laws.rowOf i) ∈ opcodeMap := by
  cases i <;> simp [opcodeMap, mnemonic, Laws.rowOf]

open Laws.RowOfEncoding in
/-- The laws of `RowOfEncoding` as one. -/
theorem encode_selects_rowOf (i : Instr) : Statement i := by
  cases i
  exacts [nop, movI _ _, movL _ _, ldiI _, ldiL _, ldpI _, ldpL _, wpushI _, ldnI _, ldnL _, cvtI _ _, cvtL _ _, rdwI _,
    rdwL _, lenI _, tonatI _, tonatL _, addI _ _ _, addL _ _ _, subI _ _ _, subL _ _ _, negI _ _, negL _ _, mulI _ _ _,
    mulL _ _ _, quotI _ _ _, quotL _ _ _, remI _ _ _, remL _ _ _, divI _ _ _, divL _ _ _, modI _ _ _, modL _ _ _,
    cmpI _ _, cmpL _ _, sgnI _, sgnL _, andI _ _ _, andL _ _ _, orI _ _ _, orL _ _ _, xorI _ _ _, xorL _ _ _, notI _ _,
    notL _ _, shlI _ _ _, shlL _ _ _, shrI _ _ _, shrL _ _ _, sclr, sput, sget, parseI _ _, tostrI _, tostrL _, decd _,
    decf _]

/-- A word that decodes selects the row of its command, so a word that selects no row does not decode. -/
theorem decode_of_no_row {w : Word} (h : ∀ row ∈ opcodeMap, w &&& row.2.2 ≠ row.2.1) : ∃ e, decode w = .error e := by
  cases hd : decode w with
  | error e => exact ⟨e, rfl⟩
  | ok i =>
    obtain ⟨rfl, hwf⟩ := encode_of_decode hd
    exact absurd (encode_selects_rowOf i hwf) (h _ (mem_opcodeMap i))

theorem step_of_tape_end {s : State} (h : s.tape = []) : step s = engineTurn s := by
  simp [step, h]

theorem step_of_tape_engine {s : State} {rest : List Event} (h : s.tape = .engine :: rest) :
    step s = engineTurn { s with tape := rest } := by
  rw [step_of_tape h, eventTurn, popTape_of_tape h]

theorem engineTurn_of_illegal {s : State} {e : Illegal} (hbusy : s.busy = true) (h : decode s.curCmd = .error e) :
    engineTurn s = .next (s.raise .illegal) := by
  rw [engineTurn_of_busy s hbusy, runCommand, h]

/-- Settles O3: the engine's turn raises ILLEGAL, whether the tape gives the turn or is at its end. -/
theorem wordsSelectTheirRowOrRaiseIllegal : Obligations.WordsSelectTheirRowOrRaiseIllegal := by
  unfold Obligations.WordsSelectTheirRowOrRaiseIllegal
  refine fun w => ⟨fun row => decode_of_selects, fun hnone s hbusy hcur => ?_⟩
  obtain ⟨e, he⟩ := decode_of_no_row hnone
  subst hcur
  exact ⟨fun htape => (step_of_tape_end htape).trans (engineTurn_of_illegal hbusy he),
    fun rest htape => (step_of_tape_engine htape).trans (engineTurn_of_illegal hbusy he)⟩

end Sys2Proof.Machine
end

section
/-! The words that are no command: reserved OPC, T = 1 without a Long form, nonzero Z (R95, R274). -/

namespace Sys2Proof.Machine

/-- No case of the decoder but the last has a reserved OPC. -/
theorem decode_of_reservedOpcode {w : Word}
    (h : w.toNat / 2 ^ 26 ∈ [0x0A, 0x0B, 0x0C, 0x0D, 0x0E, 0x0F, 0x25, 0x26, 0x27] ∨ 0x2A ≤ w.toNat / 2 ^ 26) :
    decode w = .error .reservedOpcode := by
  have hopc : w.toNat / 2 ^ 26 = (fieldOpcT w).toNat / 2 := by rw [toNat_fieldOpcT]; omega
  rw [hopc] at h
  unfold decode
  split
  case h_67 => rfl
  all_goals
    rename_i hop
    rw [hop] at h
    exact absurd h (by decide)

theorem fieldOpcT_of_typeBit {w : Word} (h : w.getLsbD 25 = true) :
    fieldOpcT w = BitVec.ofNat 7 (2 * (w.toNat / 2 ^ 26) + 1) := by
  have hodd : w.toNat / 2 ^ 25 % 2 = 1 := by simpa [BitVec.getLsbD, Nat.testBit_eq_decide_div_mod_eq] using h
  have hnat : 2 * (w.toNat / 2 ^ 26) + 1 = (fieldOpcT w).toNat := by rw [toNat_fieldOpcT]; omega
  rw [hnat, BitVec.ofNat_toNat, BitVec.setWidth_eq]

theorem decode_of_typeBit {w : Word} (hopc : w.toNat / 2 ^ 26 ∈ [0x00, 0x04, 0x08, 0x20, 0x21, 0x22, 0x23, 0x28, 0x29])
    (h : w.getLsbD 25 = true) : decode w = .error .typeBit := by
  have hop := fieldOpcT_of_typeBit h
  rw [decode, hop]
  generalize w.toNat / 2 ^ 26 = opc at hopc
  fin_cases hopc <;> rfl

@[simp] theorem fieldZ_encodeFields (o : BitVec 7) (d a b : Reg) (n : BitVec 8) : fieldZ (encodeFields o d a b n) = 0#5 :=
  ((encodeFields_eq_iff _ o d a b n).1 rfl).2.1

@[simp] theorem fieldZ_encodeShift (o : BitVec 7) (d a : Reg) (sh : Nat) : fieldZ (encodeShift o d a sh) = 0#5 :=
  ((encodeShift_eq_iff _ o d a sh).1 rfl).2.1

theorem fieldZ_encode (i : Instr) : fieldZ (encode i) = 0#5 := by
  cases i <;> simp [encode]

/-- Settles O4: OPC and T alone decide the first two clauses, and the word of a command has Z = 0. -/
theorem reservedEncodingsAreNoCommand : Obligations.ReservedEncodingsAreNoCommand := by
  unfold Obligations.ReservedEncodingsAreNoCommand
  refine fun w => ⟨decode_of_reservedOpcode, decode_of_typeBit, fun hz i hd => hz ?_⟩
  obtain ⟨rfl, -⟩ := encode_of_decode hd
  exact fieldZ_encode i

/-- Settles O5, by running the decoder. -/
theorem specWordsDecodeToTheirCommands : Obligations.SpecWordsDecodeToTheirCommands := by
  unfold Obligations.SpecWordsDecodeToTheirCommands
  decide

end Sys2Proof.Machine
end

section
/-! What a command gives or raises, from its buffered writes: the claims `Raises`, `GivesInt`, `GivesLong`, `GivesResult` and
`WritesIntOrCapacity` speak of `exec`, and `effect` says what the command writes (R25, R26, R271, R272). -/

namespace Sys2Proof.Machine

section Outcomes
variable {i : Instr} {s : State} {d a : Reg} {z : Int}

theorem raises_of_effect {e : Err} (h : effect i s = .error e) : Raises i s e.code := by
  rw [Raises, exec_eq_finish, h]
  rfl

theorem exec_of_effect_setReg {v : Value} (h : effect i s = .ok (s.setReg d v)) : exec i s =
    .next { s with x := s.x.set d.toNat v d.isLt, busy := false, curCmd := 0, aLo := 0, aHi := 0 } := by
  rw [exec_eq_finish, h]
  rfl

theorem givesInt_of_effect (h : effect i s = .ok (s.setReg d (mkInt z))) : GivesInt i s d z :=
  ⟨mkInt z, isInt_mkInt z, exec_of_effect_setReg h⟩

theorem givesLong_of_effect {v : Value} (hv : IsLong v z) (h : effect i s = .ok (s.setReg d v)) : GivesLong i s d z :=
  ⟨v, hv, exec_of_effect_setReg h⟩

theorem givesResult_of_effect {lo hi : Word} (h : effect i s = .ok (s.setRes lo hi)) : GivesResult i s lo hi := by
  rw [GivesResult, exec_eq_finish, h]
  rfl

theorem givesInt_of_fits (hz : Fits s z) (h : effect i s = s.writeInt d z) : GivesInt i s d z :=
  givesInt_of_effect (h.trans (writeInt_of_fits s d z hz))

theorem writesIntOrCapacity_of_effect (h : effect i s = s.writeInt d z) : WritesIntOrCapacity i s d z :=
  ⟨fun hz => givesInt_of_fits hz h, fun hz => raises_of_effect (h.trans (writeInt_of_not_fits s d z hz))⟩

/-- Writing a Long of the range gives it unwrapped. -/
theorem givesLong_of_range (h1 : longMin ≤ z) (h2 : z ≤ longMax) (h : effect i s = .ok (s.writeLong d z)) :
    GivesLong i s d z :=
  givesLong_of_effect ⟨_, _, rfl, (longVal_mkLong z).trans (wrap64_of_range z h1 h2)⟩ h

/-- A command that begins by reading an Integer operand has that read's errors (R34, R273). -/
theorem checksInt_of_effect {f : Int → Except Err State} (h : effect i s = s.readInt a >>= f) : ChecksInt i s a := by
  intro e he
  rw [(readInt_eq_error s a e).2 he] at h
  exact raises_of_effect h

theorem checksLong_of_effect {f : Int → Except Err State} (h : effect i s = s.readLong a >>= f) : ChecksLong i s a := by
  intro e he
  rw [(readLong_eq_error s a e).2 he] at h
  exact raises_of_effect h

/-- A command that begins by reading an Integer operand goes on with the value held. -/
theorem effect_of_holdsInt {f : Int → Except Err State} {t : Except Err State} (h : effect i s = s.readInt a >>= f)
    (hz : HoldsInt s a z) (ht : f z = t) : effect i s = t := by
  rw [h, (readInt_eq_ok s a z).2 hz]
  exact ht

theorem effect_of_holdsLong {f : Int → Except Err State} {t : Except Err State} (h : effect i s = s.readLong a >>= f)
    (hz : HoldsLong s a z) (ht : f z = t) : effect i s = t := by
  rw [h, (readLong_eq_ok s a z).2 hz]
  exact ht

end Outcomes

end Sys2Proof.Machine
end

section
/-! Moving and loading: NOP, MOV, LDI, LDP and WPUSH (R123 to R130). -/

namespace Sys2Proof.Machine

/-- Writing a register the value it holds changes nothing. -/
theorem setReg_reg (s : State) (r : Reg) : s.setReg r (s.reg r) = s := by
  simp [State.setReg, State.reg]

/-- A Long is what `mkLong` makes of its value (R21). -/
theorem mkLong_longVal (low high : Word) : mkLong (longVal low high) = .long low high := by
  obtain ⟨h1, h2⟩ := longVal_range low high
  obtain ⟨hlow, hhigh⟩ := longVal_inj _ _ low high ((longVal_mkLong _).trans (wrap64_of_range _ h1 h2))
  rw [mkLong, hlow, hhigh]

/-- A number of the range of a Long fits two words (R11, R21). -/
theorem fits_of_longRange {s : State} {z : Int} (hmaxw : 2 ≤ s.maxw.toNat) (h1 : longMin ≤ z) (h2 : z ≤ longMax) :
    Fits s z := by
  have hlen : intLen z ≤ 2 := by
    rw [intLen_le_iff]
    unfold longMin at h1
    unfold longMax at h2
    omega
  exact (fits_iff s z).2 (hlen.trans hmaxw)

theorem longMin_le_toInt (w : Word) : longMin ≤ w.toInt := by
  have := w.le_toInt
  unfold longMin
  omega

theorem toInt_le_longMax (w : Word) : w.toInt ≤ longMax := by
  have := w.toInt_lt
  unfold longMax
  omega

/-- `s64(A_HI:A_LO)` is the Long of the two words (R16, R21). -/
theorem toInt_argPair (s : State) : s.argPair.toInt = longVal s.aLo s.aHi := by
  rw [State.argPair, BitVec.toInt_append, longVal]
  push_cast
  ring

/-- Settles O33: NOP has no buffered write. -/
theorem nopChangesNothing : Obligations.NopChangesNothing := by
  unfold Obligations.NopChangesNothing
  exact ⟨by decide, fun s => exec_eq_finish .nop s⟩

/-- Settles O34: MOV writes the form of the value it reads, which for a canonical source is the stored form itself. -/
theorem movCopiesARegister : Obligations.MovCopiesARegister := by
  unfold Obligations.MovCopiesARegister
  refine ⟨by decide, by decide, fun s d a => ⟨checksInt_of_effect rfl, fun z hz => ?_, checksLong_of_effect rfl,
    fun z hz => ?_, fun w sg ha hcanon => ?_, fun low high ha => ?_⟩⟩
  · exact givesInt_of_effect (effect_of_holdsInt rfl hz rfl)
  · obtain ⟨low, high, -, rfl⟩ := id hz
    obtain ⟨h1, h2⟩ := longVal_range low high
    exact givesLong_of_range h1 h2 (effect_of_holdsLong rfl hz rfl)
  · have h : effect (.movI a a) s = .ok (s.setReg a (mkInt (intVal w sg))) := effect_of_holdsInt rfl ⟨w, sg, ha, rfl⟩ rfl
    rw [mkInt_intVal w sg hcanon, ← ha, setReg_reg] at h
    rw [exec_eq_finish, h]
    rfl
  · have h : effect (.movL a a) s = .ok (s.writeLong a (longVal low high)) :=
      effect_of_holdsLong rfl ⟨low, high, ha, rfl⟩ rfl
    rw [State.writeLong, mkLong_longVal, ← ha, setReg_reg] at h
    rw [exec_eq_finish, h]
    rfl

/-- Settles O35: both arguments are in the range of a Long, which fits. -/
theorem loadsGiveTheArgument : Obligations.LoadsGiveTheArgument := by
  unfold Obligations.LoadsGiveTheArgument
  refine ⟨by decide, by decide, by decide, by decide, fun s d hmaxw => ?_⟩
  have hlo := longMin_le_toInt s.aLo
  have hhi := toInt_le_longMax s.aLo
  refine ⟨givesInt_of_fits (fits_of_longRange hmaxw hlo hhi) rfl, givesLong_of_range hlo hhi rfl, ?_,
    exec_of_effect_setReg rfl⟩
  obtain ⟨h1, h2⟩ := longVal_range s.aLo s.aHi
  have h : effect (.ldpI d) s = s.writeInt d (longVal s.aLo s.aHi) := by rw [← toInt_argPair]; rfl
  exact givesInt_of_fits (fits_of_longRange hmaxw h1 h2) h

/-- Settles O36: WPUSH.I reads its operand and writes an Integer. -/
theorem wpushAppendsAWord : Obligations.WpushAppendsAWord := by
  unfold Obligations.WpushAppendsAWord
  exact ⟨by decide, fun s d => ⟨checksInt_of_effect rfl,
    fun z hz => writesIntOrCapacity_of_effect (effect_of_holdsInt rfl hz rfl)⟩⟩

end Sys2Proof.Machine
end

section
/-! The words of a value: word `i` of an Integer or a Long is word `i` of its infinite two's-complement reading, which is what CVT,
RDW and LEN read (R19, R22, R133 to R137). -/

namespace Sys2Proof.Machine

theorem wordAt_zero (z : Int) : wordAt z 0 = word z := by simp [wordAt]

theorem wordAt_one (z : Int) : wordAt z 1 = word (z / ((2 ^ 32 : Nat) : Int)) := rfl

/-- The low word of `a + 2^32 * z` is `a`. -/
theorem word_add_mul (a : Word) (z : Int) : word (a.toNat + 2 ^ 32 * z) = a := by
  have h := toNat_word (a.toNat + 2 ^ 32 * z)
  have ha := a.isLt
  exact BitVec.eq_of_toNat_eq (by omega)

/-- Every word of the sign alone is the sign word. -/
theorem wordAt_signWord_toInt {sg : Word} (h : sg = 0 ∨ sg = signOnes) (i : Nat) : wordAt sg.toInt i = sg := by
  induction i with
  | zero => rcases h with rfl | rfl <;> decide
  | succ i ih =>
    have hdiv : sg.toInt / ((2 ^ 32 : Nat) : Int) = sg.toInt := by rcases h with rfl | rfl <;> decide
    rw [wordAt_succ, hdiv, ih]

theorem intVal_nil {sg : Word} (h : sg = 0 ∨ sg = signOnes) : intVal [] sg = sg.toInt := by
  rcases h with rfl | rfl <;> decide

/-- The stored words of an Integer, and its sign word beyond them, are the words of its value. -/
theorem wordAt_intVal (w : List Word) {sg : Word} (h : sg = 0 ∨ sg = signOnes) (i : Nat) :
    wordAt (intVal w sg) i = w.getD i sg := by
  induction w generalizing i with
  | nil => rw [intVal_nil h, wordAt_signWord_toInt h, List.getD_nil]
  | cons a t ih =>
    rw [intVal_cons]
    cases i with
    | zero => rw [wordAt_zero, word_add_mul, List.getD_cons_zero]
    | succ i =>
      have ha := a.isLt
      have hdiv : ((a.toNat : Int) + 2 ^ 32 * intVal t sg) / ((2 ^ 32 : Nat) : Int) = intVal t sg := by omega
      rw [wordAt_succ, hdiv, ih, List.getD_cons_succ]

theorem signOfHigh_cases (high : Word) : signOfHigh high = 0 ∨ signOfHigh high = signOnes := by
  unfold signOfHigh
  split <;> simp

/-- A Long is an Integer of two stored words whose sign word is spread from bit 31 of the high one (R21, R22). -/
theorem intVal_of_long (low high : Word) : intVal [low, high] (signOfHigh high) = longVal low high := by
  have hsign : (high.toNat : Int) + 2 ^ 32 * (signOfHigh high).toInt = high.toInt := by
    rw [BitVec.toInt_eq_msb_cond (x := high), signOfHigh]
    split
    · rw [signOnes_toInt]; push_cast; ring
    · have h0 : (0 : Word).toInt = 0 := by decide
      rw [h0, mul_zero, add_zero]
  rw [intVal_cons, intVal_cons, intVal_nil (signOfHigh_cases high), hsign, longVal]
  push_cast
  ring

theorem getBits_mkInt (z : Int) (i : Nat) : getBits (mkInt z) i = wordAt z i := by
  rw [mkInt, getBits_int_natCast, ← wordAt_intVal _ (signWord_cases z), intVal_mkInt]

theorem getBits_long (low high : Word) (i : Nat) : getBits (.long low high) i = wordAt (longVal low high) i := by
  rw [← intVal_of_long, wordAt_intVal _ (signOfHigh_cases high), getBits]
  rcases i with - | - | i
  · simp
  · simp
  · rw [if_neg (by omega), if_neg (by omega), if_neg (by omega)]
    simp

/-- A negative index reads 0 (R22). -/
theorem getBits_of_neg (v : Value) {i : Int} (h : i < 0) : getBits v i = 0 := by
  cases v <;> simp [getBits, h]

theorem wrap64_eq_bmod (z : Int) : wrap64 z = z.bmod (2 ^ 64) := by
  rw [wrap64, Int.bmod_def]
  split <;> omega

/-- The two low words of a number are its Long modulo 2^64 (R21). -/
theorem isLong_wordAt (z : Int) : IsLong (.long (wordAt z 0) (wordAt z 1)) (z.bmod (2 ^ 64)) := by
  refine ⟨_, _, rfl, ?_⟩
  rw [wordAt_zero, wordAt_one, longVal_mkLong, wrap64_eq_bmod]

/-- The words CVT.I and RDW read from a legal Integer register are those of its value. -/
theorem getBits_reg_of_holdsInt {s : State} {a : Reg} {z : Int} {n : Nat} (hz : HoldsInt s a z) (hok : (s.reg a).ok n)
    (i : Nat) : getBits (s.reg a) i = wordAt z i := by
  obtain ⟨w, sg, ha, rfl⟩ := hz
  rw [ha] at hok ⊢
  obtain ⟨⟨hsg, -⟩, -⟩ := hok
  rw [getBits_int_natCast, wordAt_intVal w hsg]

theorem getBits_reg_of_holdsLong {s : State} {a : Reg} {z : Int} (hz : HoldsLong s a z) (i : Nat) :
    getBits (s.reg a) i = wordAt z i := by
  obtain ⟨low, high, ha, rfl⟩ := hz
  rw [ha, getBits_long]

/-- A value whose words are those of `z` gives RDW's two outcomes (R135, R136). -/
theorem getBits_signedIndex {v : Value} {z : Int} (h : ∀ i : Nat, getBits v i = wordAt z i) (lo : Word) :
    (lo.toInt < 0 → getBits v lo.toInt = 0) ∧
    (0 ≤ lo.toInt → getBits v lo.toInt = BitVec.ofInt 32 (z / 2 ^ (32 * lo.toNat))) := by
  refine ⟨getBits_of_neg v, fun hpos => ?_⟩
  have hlo : lo.toInt = (lo.toNat : Int) := by
    rw [BitVec.toInt_eq_toNat_cond] at hpos ⊢
    split <;> omega
  rw [hlo, h, wordAt, word]
  push_cast
  rfl

/-- A command that writes word `s32(A_LO)` of a value to RES_LO. -/
theorem givesResult_of_getBits {i : Instr} {s : State} {v : Value} {z : Int} (hv : ∀ i : Nat, getBits v i = wordAt z i)
    (h : effect i s = .ok (s.setRes (getBits v s.aLo.toInt) 0)) :
    (s.aLo.toInt < 0 → GivesResult i s 0 0) ∧
    (0 ≤ s.aLo.toInt → GivesResult i s (BitVec.ofInt 32 (z / 2 ^ (32 * s.aLo.toNat))) 0) := by
  obtain ⟨hneg, hpos⟩ := getBits_signedIndex hv s.aLo
  have hres := givesResult_of_effect h
  exact ⟨fun hi => hneg hi ▸ hres, fun hi => hpos hi ▸ hres⟩

/-- CVT.L of a Long gives its value as an Integer: two words hold it. -/
theorem effect_cvtL {s : State} {d a : Reg} {z : Int} (hz : HoldsLong s a z) (hmaxw : 2 ≤ s.maxw.toNat) :
    effect (.cvtL d a) s = .ok (s.setReg d (mkInt z)) := by
  refine effect_of_holdsLong rfl hz (writeInt_of_fits s d z ?_)
  obtain ⟨low, high, -, rfl⟩ := hz
  obtain ⟨h1, h2⟩ := longVal_range low high
  exact fits_of_longRange hmaxw h1 h2

/-- CVT.I of a legal Integer register writes the two low words of its value. -/
theorem effect_cvtI {s : State} {d a : Reg} {z : Int} {n : Nat} (hz : HoldsInt s a z) (hok : (s.reg a).ok n) :
    effect (.cvtI d a) s = .ok (s.setReg d (.long (wordAt z 0) (wordAt z 1))) := by
  rw [← getBits_reg_of_holdsInt hz hok, ← getBits_reg_of_holdsInt hz hok]
  exact effect_of_holdsInt rfl hz rfl

/-- Settles O39: the two low words of an Integer are its value modulo 2^64, and a Long fits. -/
theorem cvtConvertsBetweenTheTypes : Obligations.CvtConvertsBetweenTheTypes := by
  unfold Obligations.CvtConvertsBetweenTheTypes
  exact ⟨by decide, by decide, fun s d a => ⟨checksInt_of_effect rfl,
    fun z hz hok => givesLong_of_effect (isLong_wordAt z) (effect_cvtI hz hok),
    checksLong_of_effect rfl, fun z hz hmaxw => givesInt_of_effect (effect_cvtL hz hmaxw)⟩⟩

/-- Settles O60: CVT.L leaves the canonical Integer of the Long's value, whose two low words are the Long's. -/
theorem cvtThereAndBackKeepsALong : Obligations.CvtThereAndBackKeepsALong := by
  unfold Obligations.CvtThereAndBackKeepsALong
  intro s t d e a low high hmaxw ha hexec
  rw [exec_eq_finish, effect_cvtL ⟨low, high, ha, rfl⟩ hmaxw, finish_ok, Host.Outcome.next.injEq] at hexec
  have hreg : t.reg d = mkInt (longVal low high) := by
    rw [← hexec]
    exact reg_setReg_same s d _
  have hlow : wordAt (longVal low high) 0 = low := (getBits_long low high 0).symm
  have hhigh : wordAt (longVal low high) 1 = high := (getBits_long low high 1).symm
  have heffect := effect_cvtI (d := e) (⟨_, _, hreg, intVal_mkInt _⟩ : HoldsInt t d (longVal low high))
    (n := intLen (longVal low high)) (hreg ▸ ⟨⟨signWord_cases _, getLast_mkInt_ne _⟩, by simp⟩)
  rw [hlow, hhigh] at heffect
  exact exec_of_effect_setReg heffect

/-- Settles O40: RDW reads a word of the value, of an Integer through its canonical form. -/
theorem rdwReadsOneWord : Obligations.RdwReadsOneWord := by
  unfold Obligations.RdwReadsOneWord
  exact ⟨by decide, by decide, fun s a => ⟨checksInt_of_effect rfl, checksLong_of_effect rfl,
    fun z hz => givesResult_of_getBits (getBits_mkInt z) (effect_of_holdsInt rfl hz rfl),
    fun z hz => givesResult_of_getBits (getBits_reg_of_holdsLong hz) (effect_of_holdsLong rfl hz rfl)⟩⟩

/-- Settles O41: a canonical form has the length and the sign word of its value. -/
theorem lenReadsLengthAndSign : Obligations.LenReadsLengthAndSign := by
  unfold Obligations.LenReadsLengthAndSign
  refine ⟨by decide, fun s a => ⟨checksInt_of_effect rfl, fun z w sg hz hcanon hval => givesResult_of_effect ?_⟩⟩
  subst hval
  refine effect_of_holdsInt rfl hz ?_
  rw [intLen_intVal w sg hcanon, signWord_intVal w sg hcanon.1]

end Sys2Proof.Machine
end

section
/-! Truncating a double: `truncDouble` is the truncation of the rational a finite pattern denotes, and an integer bound away from 0
is passed by a value exactly when it is passed by its truncation (R121, R131, R132). -/

namespace Sys2Proof.Machine

theorem scaleFloor_eq_floor (m : Nat) (e : Int) : ((scaleFloor m e : Nat) : Int) = ⌊(m : ℚ) * 2 ^ e⌋ := by
  unfold scaleFloor
  split
  · lift e to Nat using ‹_›
    rw [← Int.floor_intCast (R := ℚ) ((m * 2 ^ (e : Int).toNat : Nat) : Int)]
    simp
  · obtain ⟨k, rfl⟩ : ∃ k : Nat, e = -(k : Int) := ⟨(-e).toNat, by omega⟩
    have hdiv : (m : ℚ) * 2 ^ (-(k : Int)) = ((m : Int) : ℚ) / ((2 ^ k : Nat) : ℚ) := by
      rw [zpow_neg, zpow_natCast, div_eq_mul_inv]
      push_cast
      rfl
    rw [hdiv, Rat.floor_intCast_div_natCast, neg_neg, Int.toNat_natCast, Int.natCast_ediv]

theorem IsTrunc.eq_floor {v : ℚ} {z : Int} (h : IsTrunc v z) (hv : 0 ≤ v) : z = ⌊v⌋ := h.1 hv

/-- Truncating the negative of a magnitude gives the negative of its floor. -/
theorem IsTrunc.eq_neg_floor {v : ℚ} {z : Int} (h : IsTrunc (-v) z) (hv : 0 ≤ v) : z = -⌊v⌋ := by
  rcases hv.eq_or_lt with rfl | hpos
  · simpa using h.1 (by simp)
  · rw [h.2 (by linarith), Int.ceil_neg]

/-- The model's truncation of a finite value is the truncation of the rational it denotes (R131). -/
theorem truncDouble_of_rational {x : Double} {v : ℚ} {z : Int} (hx : x.rational = some v) (h : IsTrunc v z) :
    truncDouble x = z := by
  cases x with
  | nan | inf => cases hx
  | finite neg m e =>
    obtain rfl := Option.some.inj hx
    have hpos : (0 : ℚ) ≤ m * 2 ^ e := by positivity
    cases neg with
    | false =>
      have hz := IsTrunc.eq_floor (v := m * 2 ^ e) (by simpa using h) hpos
      simp [truncDouble, scaleFloor_eq_floor, hz]
    | true =>
      have hz := IsTrunc.eq_neg_floor (v := m * 2 ^ e) (by simpa using h) hpos
      simp [truncDouble, scaleFloor_eq_floor, hz]

/-- NaN and the infinities truncate to 0 (R131). -/
theorem truncDouble_of_rational_none {x : Double} (hx : x.rational = none) : truncDouble x = 0 := by
  cases x with
  | nan | inf => rfl
  | finite => cases hx

theorem fits_zero (s : State) : Fits s 0 := (fits_iff s 0).2 (Nat.zero_le _)

/-- Settles O37: the value is NaN or infinite and truncates to 0, or `truncDouble` is its truncation. -/
theorem ldnIntegerTruncates : Obligations.LdnIntegerTruncates := by
  unfold Obligations.LdnIntegerTruncates
  refine ⟨by decide, fun s d => ⟨fun hv => ?_, fun v z hv hz => ?_⟩⟩
  · have htrunc := truncDouble_of_rational_none ((f64_rational _).trans hv)
    exact givesInt_of_fits (fits_zero s) (congrArg (s.writeInt d) htrunc)
  · have htrunc := truncDouble_of_rational ((f64_rational _).trans hv) hz
    exact writesIntOrCapacity_of_effect (congrArg (s.writeInt d) htrunc)

/-- A negative integer bound holds of a value exactly when it holds of its truncation. -/
theorem IsTrunc.le_iff {v : ℚ} {z n : Int} (h : IsTrunc v z) (hn : n < 0) : v ≤ n ↔ z ≤ n := by
  rcases lt_or_ge v 0 with hv | hv
  · rw [h.2 hv, Int.ceil_le]
  · have hz : 0 ≤ z := h.eq_floor hv ▸ Int.floor_nonneg.2 hv
    have hn' : (n : ℚ) < 0 := by exact_mod_cast hn
    exact iff_of_false (by linarith) (by omega)

/-- A positive integer bound is reached by a value exactly when its truncation reaches it. -/
theorem IsTrunc.ge_iff {v : ℚ} {z n : Int} (h : IsTrunc v z) (hn : 0 < n) : n ≤ v ↔ n ≤ z := by
  rcases lt_or_ge v 0 with hv | hv
  · have hz : z ≤ 0 := h.2 hv ▸ Int.ceil_le.2 (by exact_mod_cast hv.le)
    have hn' : (0 : ℚ) < n := by exact_mod_cast hn
    exact iff_of_false (by linarith) (by omega)
  · rw [h.eq_floor hv, Int.le_floor]

/-- A finite value saturates by its truncation (R132). -/
theorem saturateDouble_of_rational {x : Double} {v : ℚ} {z : Int} (hx : x.rational = some v) (h : IsTrunc v z) :
    saturateDouble x = if z ≤ longMin then longMin else if longMax < z then longMax else z := by
  have htrunc := truncDouble_of_rational hx h
  cases x with
  | nan | inf => cases hx
  | finite => rw [saturateDouble, htrunc]

/-- What LDN.L makes of a value is in the range of a Long, so writing it does not wrap. -/
theorem saturateDouble_range (x : Double) : longMin ≤ saturateDouble x ∧ saturateDouble x ≤ longMax := by
  have hlong : longMin ≤ 0 ∧ 0 ≤ longMax := by decide
  unfold saturateDouble
  split
  · exact hlong
  · split <;> omega
  · split_ifs <;> omega

theorem givesLong_ldnL {s : State} {d : Reg} {z : Int} (h : saturateDouble (f64 s.argPair) = z) :
    GivesLong (.ldnL d) s d z := by
  obtain ⟨h1, h2⟩ := saturateDouble_range (f64 s.argPair)
  subst h
  exact givesLong_of_range h1 h2 rfl

/-- Settles O38: NaN and the infinities by their patterns, a finite value by the place of its truncation. -/
theorem ldnLongTruncatesAndSaturates : Obligations.LdnLongTruncatesAndSaturates := by
  unfold Obligations.LdnLongTruncatesAndSaturates
  have hmin : longMin = -2 ^ 63 := by decide
  have hmax : longMax = 2 ^ 63 - 1 := by decide
  refine ⟨by decide, fun s d => ⟨fun hexp hfrac => givesLong_ldnL ?_, fun hexp hfrac => givesLong_ldnL ?_,
    fun v z hv hz => ?_⟩⟩
  · rw [State.argPair, f64_of_max_exp _ hexp, if_neg hfrac, saturateDouble]
  · rw [State.argPair, f64_of_max_exp _ hexp, if_pos hfrac, saturateDouble, hmin, hmax]
  · have hsat := saturateDouble_of_rational ((f64_rational _).trans hv) hz
    have hlow : v ≤ -2 ^ 63 ↔ z ≤ longMin := by
      rw [← hz.le_iff (by decide), hmin]
      norm_num
    have hhigh : 2 ^ 63 ≤ v ↔ longMax < z := by
      rw [← Int.add_one_le_iff, ← hz.ge_iff (by decide), hmax]
      norm_num
    rw [← hmin, ← hmax]
    refine ⟨fun h => givesLong_ldnL (hsat.trans ?_), fun h => givesLong_ldnL (hsat.trans ?_),
      fun h h' => givesLong_ldnL (hsat.trans ?_)⟩
    · rw [if_pos (hlow.1 h)]
    · have hz' := hhigh.1 h
      rw [if_neg (by omega), if_pos hz']
    · rw [if_neg (mt hlow.2 (not_le.2 h)), if_neg (mt hhigh.2 (not_le.2 h'))]

end Sys2Proof.Machine
end

section
/-! Rounding a magnitude to 53 significant bits: the significand times its unit is a nearest multiple of the unit, an even one in a
tie, and no double outside the multiples of the unit is as near (R122). -/

namespace Sys2Proof.Machine

/-- Rounding a quotient takes it or the next number. -/
theorem roundShift_cases (m k : Nat) : roundShift m k = m / 2 ^ k ∨ roundShift m k = m / 2 ^ k + 1 := by
  unfold roundShift
  split <;> simp

/-- The rounded quotient is the nearest one, and an even one where another is as near (R122). -/
theorem roundShift_nearest (m k t : Nat) :
    |(m : ℤ) - (roundShift m k * 2 ^ k : Nat)| ≤ |(m : ℤ) - (t * 2 ^ k : Nat)| ∧
    (|(m : ℤ) - (t * 2 ^ k : Nat)| = |(m : ℤ) - (roundShift m k * 2 ^ k : Nat)| →
      t = roundShift m k ∨ roundShift m k % 2 = 0) := by
  have hm := Nat.div_add_mod' m (2 ^ k)
  have hr := Nat.mod_lt m (Nat.two_pow_pos k)
  unfold roundShift
  generalize 2 ^ k = p at *
  generalize m / p = q at *
  generalize m % p = r at *
  have hup : (q + 1) * p = q * p + p := by ring
  have ht : t < q ∧ t * p + p ≤ q * p ∨ t = q ∧ t * p = q * p ∨ t = q + 1 ∧ t * p = q * p + p ∨
      q + 1 < t ∧ q * p + 2 * p ≤ t * p := by
    rcases lt_trichotomy t q with h | rfl | h
    · exact .inl ⟨h, by nlinarith⟩
    · exact .inr (.inl ⟨rfl, rfl⟩)
    · rcases (Nat.succ_le_of_lt h).eq_or_lt with rfl | h'
      · exact .inr (.inr (.inl ⟨rfl, hup⟩))
      · exact .inr (.inr (.inr ⟨h', by nlinarith⟩))
  simp only [Int.abs_eq_natAbs, ite_mul, hup]
  generalize q * p = Q at *
  generalize t * p = T at *
  split <;> omega

/-- A number at least half a unit below `n` units rounds to fewer. -/
theorem roundShift_lt {m k n : Nat} (h : 2 * m + 2 ^ k < 2 * (n * 2 ^ k)) : roundShift m k < n := by
  have hm := Nat.div_add_mod' m (2 ^ k)
  unfold roundShift
  generalize 2 ^ k = p at *
  generalize m / p = q at *
  generalize m % p = r at *
  split
  · have hup : (q + 1) * p = q * p + p := by ring
    exact lt_of_mul_lt_mul_right (a := p) (by omega) (Nat.zero_le p)
  · exact lt_of_mul_lt_mul_right (a := p) (by omega) (Nat.zero_le p)

/-- The unit of a magnitude's significand. -/
def significandUnit (m : Nat) : ℚ := 2 ^ ((m.log2 : ℤ) - 52)

theorem significandUnit_pos (m : Nat) : 0 < significandUnit m := by
  unfold significandUnit
  positivity

theorem significand_range {m : Nat} (hm : m ≠ 0) : 2 ^ 52 ≤ significand m ∧ significand m ≤ 2 ^ 53 := by
  have hlo := Nat.log2_self_le hm
  have hhi := Nat.lt_log2_self (n := m)
  unfold significand
  split
  · have h52 : 2 ^ 52 = 2 ^ m.log2 * 2 ^ (52 - m.log2) := by rw [← pow_add]; congr 1; omega
    have h53 : 2 ^ 53 = 2 ^ (m.log2 + 1) * 2 ^ (52 - m.log2) := by rw [← pow_add]; congr 1; omega
    rw [h52, h53]
    exact ⟨Nat.mul_le_mul_right _ hlo, Nat.mul_le_mul_right _ hhi.le⟩
  · have h52 : 2 ^ m.log2 = 2 ^ 52 * 2 ^ (m.log2 - 52) := by rw [← pow_add]; congr 1; omega
    have h53 : 2 ^ (m.log2 + 1) = 2 ^ 53 * 2 ^ (m.log2 - 52) := by rw [← pow_add]; congr 1; omega
    rw [h52] at hlo
    rw [h53] at hhi
    have hqlo := (Nat.le_div_iff_mul_le (Nat.two_pow_pos _)).2 hlo
    have hqhi := (Nat.div_lt_iff_lt_mul (Nat.two_pow_pos _)).2 hhi
    rcases roundShift_cases m (m.log2 - 52) with h | h <;> omega

/-- The leading bit of a magnitude is the lowest significand of its unit. -/
theorem two_pow_mul_significandUnit_le {m : Nat} (hm : m ≠ 0) : 2 ^ 52 * significandUnit m ≤ m := by
  have hlo : ((2 ^ m.log2 : Nat) : ℚ) ≤ m := by exact_mod_cast Nat.log2_self_le hm
  refine le_trans (le_of_eq ?_) hlo
  rw [significandUnit, ← zpow_natCast, ← zpow_add₀ two_ne_zero, Nat.cast_pow, ← zpow_natCast]
  congr 1
  push_cast
  ring

/-- A magnitude of at most 53 bits is its significand exactly. -/
theorem significand_mul_unit {m : Nat} (h : m.log2 ≤ 52) : (significand m : ℚ) * significandUnit m = m := by
  have hunit : significandUnit m * 2 ^ (52 - m.log2) = 1 := by
    rw [significandUnit, ← zpow_natCast, ← zpow_add₀ two_ne_zero, Nat.cast_sub h]
    norm_num
  rw [significand, if_pos h, Nat.cast_mul, Nat.cast_pow, Nat.cast_ofNat, mul_assoc, mul_comm (2 ^ _), hunit, mul_one]

theorem significandUnit_of_large {m : Nat} (h : 52 ≤ m.log2) : significandUnit m = 2 ^ (m.log2 - 52) := by
  rw [significandUnit, ← zpow_natCast, Nat.cast_sub h]
  rfl

/-- No multiple of the unit is nearer to a magnitude than its significand's, and the significand is even where another is as
near (R122). -/
theorem significand_nearest (m t : Nat) :
    |(m : ℚ) - significand m * significandUnit m| ≤ |(m : ℚ) - t * significandUnit m| ∧
    (|(m : ℚ) - t * significandUnit m| = |(m : ℚ) - significand m * significandUnit m| →
      t = significand m ∨ significand m % 2 = 0) := by
  rcases le_or_gt m.log2 52 with h | h
  · rw [significand_mul_unit h, sub_self, abs_zero]
    refine ⟨abs_nonneg _, fun htie => .inl ?_⟩
    have heq : (significand m : ℚ) * significandUnit m = t * significandUnit m :=
      (significand_mul_unit h).trans (sub_eq_zero.1 (abs_eq_zero.1 htie))
    exact_mod_cast (mul_right_cancel₀ (significandUnit_pos m).ne' heq).symm
  · obtain ⟨hnear, htie⟩ := roundShift_nearest m (m.log2 - 52) t
    rw [significandUnit_of_large h.le, significand, if_neg (not_le.2 h)]
    exact ⟨by exact_mod_cast hnear, fun h => htie (by exact_mod_cast h)⟩

/-- A double's magnitude is a multiple of a power of 2 or less than 2^52 times it. -/
theorem lt_or_multiple {μ : Nat} (hμ : μ < 2 ^ 53) (e f : ℤ) :
    (μ : ℚ) * 2 ^ e < 2 ^ 52 * 2 ^ f ∨ ∃ t : Nat, (μ : ℚ) * 2 ^ e = t * 2 ^ f := by
  rcases lt_or_ge e f with h | h
  · left
    calc (μ : ℚ) * 2 ^ e < 2 ^ 53 * 2 ^ e := by gcongr; exact_mod_cast hμ
      _ ≤ 2 ^ 53 * 2 ^ (f - 1) := by gcongr; exacts [by norm_num, by omega]
      _ = 2 ^ 52 * 2 ^ f := by rw [zpow_sub_one₀ two_ne_zero]; ring
  · right
    refine ⟨μ * 2 ^ (e - f).toNat, ?_⟩
    have hsplit : (2 : ℚ) ^ e = 2 ^ (e - f).toNat * 2 ^ f := by
      rw [← zpow_natCast, ← zpow_add₀ two_ne_zero, Int.toNat_of_nonneg (by omega), sub_add_cancel]
    rw [hsplit, Nat.cast_mul, Nat.cast_pow, Nat.cast_ofNat, mul_assoc]

/-- No double is nearer to a magnitude than its significand times the unit, and the significand is even where another is as near
(R122). -/
theorem significand_nearest_double {m : Nat} (hm : m ≠ 0) {μ : Nat} (hμ : μ < 2 ^ 53) (e : ℤ) :
    |(m : ℚ) - significand m * significandUnit m| ≤ |(m : ℚ) - μ * 2 ^ e| ∧
    (|(m : ℚ) - μ * 2 ^ e| = |(m : ℚ) - significand m * significandUnit m| →
      (μ : ℚ) * 2 ^ e = significand m * significandUnit m ∨ significand m % 2 = 0) := by
  rcases lt_or_multiple hμ e ((m.log2 : ℤ) - 52) with hlt | ⟨t, ht⟩
  · have hlead := two_pow_mul_significandUnit_le hm
    have hnear := (significand_nearest m (2 ^ 52)).1
    have hfar : |(m : ℚ) - (2 ^ 52 : Nat) * significandUnit m| < |(m : ℚ) - μ * 2 ^ e| := by
      push_cast
      rw [← significandUnit] at hlt
      rw [abs_of_nonneg (by linarith), abs_of_nonneg (by linarith)]
      linarith
    have hstrict := hnear.trans_lt hfar
    exact ⟨hstrict.le, fun htie => absurd htie hstrict.ne'⟩
  · rw [← significandUnit] at ht
    obtain ⟨hnear, htie⟩ := significand_nearest m t
    rw [ht]
    exact ⟨hnear, fun h => (htie h).imp_left fun h' => by rw [h']⟩

end Sys2Proof.Machine
end

section
/-! The double of an integer: the pattern of `roundToDouble` denotes the rounded significand times its unit, and is +0 or an
infinity where R122 says so, so that TONAT gives the nearest double (R121, R122, R138, R139). -/

namespace Sys2Proof.Machine

section Fields
variable (b : BitVec 64)

theorem f64Frac_eq : f64Frac b = b.toNat % 2 ^ 52 := by
  rw [f64Frac, BitVec.extractLsb'_toNat, Nat.shiftRight_zero]

theorem f64Exp_eq : f64Exp b = b.toNat / 2 ^ 52 % 2 ^ 11 := by
  rw [f64Exp, BitVec.extractLsb'_toNat, Nat.shiftRight_eq_div_pow]

theorem f64Sign_eq : f64Sign b = decide (b.toNat / 2 ^ 63 % 2 = 1) := by
  rw [f64Sign, BitVec.getLsbD, Nat.testBit_eq_decide_div_mod_eq]

end Fields

/-- The sign of a double as a factor. -/
def signFactor (neg : Bool) : ℚ := if neg then -1 else 1

theorem abs_signFactor (neg : Bool) : |signFactor neg| = 1 := by
  cases neg <;> simp [signFactor]

theorem f64Value_of_finite {b : BitVec 64} (h : f64Exp b ≠ 2047) :
    f64Value b = some (signFactor (f64Sign b) * f64Mantissa b * 2 ^ f64Exponent b) := by
  rw [← f64_rational, f64_of_finite b h]
  rfl

/-- The magnitude of a finite double is a significand below 2^53 times a power of 2 (R121). -/
theorem abs_f64Value {b : BitVec 64} {v : ℚ} (h : f64Value b = some v) :
    ∃ (m : Nat) (e : Int), m < 2 ^ 53 ∧ |v| = m * 2 ^ e := by
  have hexp : f64Exp b ≠ 2047 := fun hmax => by simp [f64Value, hmax] at h
  rw [f64Value_of_finite hexp] at h
  obtain rfl := Option.some.inj h
  refine ⟨f64Mantissa b, f64Exponent b, ?_, ?_⟩
  · have hfrac : f64Frac b < 2 ^ 52 := f64Frac_eq b ▸ Nat.mod_lt _ (by norm_num)
    unfold f64Mantissa
    split <;> omega
  · rw [abs_mul, abs_mul, abs_signFactor, one_mul, Nat.abs_cast, abs_of_nonneg (by positivity)]

/-- The bits of a finite double: the sign, the exponent field `E`, and a significand of 53 bits, or 2^53 where rounding carried
into the exponent (R122). -/
def finitePattern (neg : Bool) (E sig : Nat) : Nat := (if neg then 2 ^ 63 else 0) + (E * 2 ^ 52 + (sig - 2 ^ 52))

section Pattern
variable {neg : Bool} {E sig : Nat} (hfin : E * 2 ^ 52 + (sig - 2 ^ 52) < 2047 * 2 ^ 52)
include hfin

theorem toNat_finitePattern : (BitVec.ofNat 64 (finitePattern neg E sig)).toNat = finitePattern neg E sig := by
  rw [BitVec.toNat_ofNat]
  refine Nat.mod_eq_of_lt ?_
  unfold finitePattern
  split <;> omega

theorem f64Sign_finitePattern : f64Sign (BitVec.ofNat 64 (finitePattern neg E sig)) = neg := by
  rw [f64Sign_eq, toNat_finitePattern hfin]
  unfold finitePattern
  cases neg
  · simp only [Bool.false_eq_true, if_false, decide_eq_false_iff_not]
    omega
  · simp only [if_true, decide_eq_true_eq]
    omega

theorem f64Exp_finitePattern :
    f64Exp (BitVec.ofNat 64 (finitePattern neg E sig)) = E + (sig - 2 ^ 52) / 2 ^ 52 := by
  rw [f64Exp_eq, toNat_finitePattern hfin]
  unfold finitePattern
  split <;> omega

theorem f64Frac_finitePattern : f64Frac (BitVec.ofNat 64 (finitePattern neg E sig)) = (sig - 2 ^ 52) % 2 ^ 52 := by
  rw [f64Frac_eq, toNat_finitePattern hfin]
  unfold finitePattern
  split <;> omega

/-- The lowest bit of the pattern is that of the significand. -/
theorem getLsbD_finitePattern (hlo : 2 ^ 52 ≤ sig) (heven : sig % 2 = 0) :
    (BitVec.ofNat 64 (finitePattern neg E sig)).getLsbD 0 = false := by
  rw [BitVec.getLsbD, toNat_finitePattern hfin, Nat.testBit_eq_decide_div_mod_eq, decide_eq_false_iff_not]
  unfold finitePattern
  split <;> omega

/-- The pattern denotes its significand at its exponent, also where the significand carries. -/
theorem f64Value_finitePattern (hE : 0 < E) (hlo : 2 ^ 52 ≤ sig) (hhi : sig ≤ 2 ^ 53) :
    f64Value (BitVec.ofNat 64 (finitePattern neg E sig)) =
      some (signFactor neg * (sig * 2 ^ ((E : Int) - 1075))) := by
  have hexp := f64Exp_finitePattern (neg := neg) hfin
  have hfrac := f64Frac_finitePattern (neg := neg) hfin
  rw [f64Value_of_finite (by omega), f64Sign_finitePattern hfin, f64Mantissa, f64Exponent, if_neg (by omega),
    if_neg (by omega), hexp, hfrac, mul_assoc]
  rcases hhi.eq_or_lt with rfl | hlt
  · have hcarry : ((E + (2 ^ 53 - 2 ^ 52) / 2 ^ 52 : Nat) : Int) - 1075 = (E : Int) - 1075 + 1 := by push_cast; omega
    rw [hcarry, zpow_add_one₀ two_ne_zero]
    exact congrArg some (by push_cast; ring)
  · have hdiv : (sig - 2 ^ 52) / 2 ^ 52 = 0 := by omega
    have hmod : 2 ^ 52 + (sig - 2 ^ 52) % 2 ^ 52 = sig := by omega
    rw [hdiv, hmod, Nat.add_zero]

end Pattern

/-- R122's threshold, from which a magnitude rounds to an infinity. -/
def overflowBound : Nat := 2 ^ 1024 - 2 ^ 970

theorem overflowBound_eq : overflowBound = (2 ^ 54 - 1) * 2 ^ 970 := by
  rw [overflowBound, Nat.sub_mul, one_mul, ← pow_add]

theorem overflowBound_cast : (overflowBound : ℤ) = 2 ^ 1024 - 2 ^ 970 := by
  have h1024 : (2 : ℤ) ^ 1024 = 2 ^ 54 * 2 ^ 970 := by rw [← pow_add]
  rw [overflowBound_eq, h1024, Nat.cast_mul]
  generalize 970 = n
  push_cast
  ring

theorem overflowBound_lt : overflowBound < 2 ^ 1024 := by
  have h1024 : 2 ^ 1024 = 2 ^ 54 * 2 ^ 970 := by rw [← pow_add]
  rw [overflowBound_eq, h1024]
  generalize 970 = n
  exact Nat.mul_lt_mul_of_pos_right (by norm_num) (Nat.two_pow_pos n)

theorem overflowBound_pos : 0 < overflowBound := by
  rw [overflowBound_eq]
  positivity

/-- A magnitude below the threshold keeps an exponent field below that of the infinities, also where rounding carries into it. -/
theorem exponentField_lt {m : Nat} (hm : m ≠ 0) (h : m < overflowBound) :
    (m.log2 + 1023) * 2 ^ 52 + (significand m - 2 ^ 52) < 2047 * 2 ^ 52 := by
  obtain ⟨-, hsig⟩ := significand_range hm
  have hlog : m.log2 < 1024 := by
    have hlt := h.trans overflowBound_lt
    generalize 1024 = n at *
    exact (Nat.log2_lt hm).2 hlt
  rcases (Nat.le_of_lt_succ hlog).eq_or_lt with heq | hlt
  · have hround : roundShift m 971 < 2 ^ 53 := by
      refine roundShift_lt ?_
      rw [overflowBound_eq] at h
      have h971 : 2 ^ 971 = 2 * 2 ^ 970 := by rw [← pow_succ']
      rw [h971]
      generalize 2 ^ 970 = K at *
      omega
    have hsig' : significand m < 2 ^ 53 := by rwa [significand, heq, if_neg (by norm_num)]
    omega
  · omega

theorem roundToDouble_of_finite {z : Int} (hz : z ≠ 0) (h : z.natAbs < overflowBound) : roundToDouble z =
    BitVec.ofNat 64 (finitePattern (decide (z < 0)) (z.natAbs.log2 + 1023) (significand z.natAbs)) := by
  rw [roundToDouble, roundMagnitude, ← overflowBound, if_neg (Int.natAbs_ne_zero.2 hz), if_neg (not_le.2 h)]
  unfold finitePattern
  simp only [decide_eq_true_eq]

/-- The double of an integer below the threshold is its significand times its unit, with its sign (R122). -/
theorem f64Value_roundToDouble {z : Int} (hz : z ≠ 0) (h : z.natAbs < overflowBound) : f64Value (roundToDouble z) =
    some (signFactor (decide (z < 0)) * (significand z.natAbs * significandUnit z.natAbs)) := by
  have hm := Int.natAbs_ne_zero.2 hz
  obtain ⟨hlo, hhi⟩ := significand_range hm
  have hexp : ((z.natAbs.log2 + 1023 : Nat) : Int) - 1075 = (z.natAbs.log2 : Int) - 52 := by push_cast; ring
  rw [roundToDouble_of_finite hz h, f64Value_finitePattern (exponentField_lt hm h) (by omega) hlo hhi, hexp,
    significandUnit]

theorem getLsbD_roundToDouble {z : Int} (hz : z ≠ 0) (h : z.natAbs < overflowBound) (heven : significand z.natAbs % 2 = 0) :
    (roundToDouble z).getLsbD 0 = false := by
  have hm := Int.natAbs_ne_zero.2 hz
  rw [roundToDouble_of_finite hz h]
  exact getLsbD_finitePattern (exponentField_lt hm h) (significand_range hm).1 heven

theorem signFactor_mul_natAbs (z : Int) : signFactor (decide (z < 0)) * z.natAbs = (z : ℚ) := by
  rw [Nat.cast_natAbs, signFactor]
  rcases lt_or_ge z 0 with h | h
  · simp [h, abs_of_neg h]
  · simp [not_lt.2 h, abs_of_nonneg h]

theorem abs_signFactor_mul_sub (neg : Bool) (p q : ℚ) : |signFactor neg * p - signFactor neg * q| = |p - q| := by
  rw [← mul_sub, abs_mul, abs_signFactor, one_mul]

/-- A number of the other sign is not as near as the number of the same magnitude and the same sign. -/
theorem abs_sub_neg_ne {p q : ℚ} (hp : 0 < p) (hq : 0 < q) (neg : Bool) :
    |signFactor neg * p - -(signFactor neg * q)| ≠ |p - q| := by
  rw [← mul_neg, abs_signFactor_mul_sub, sub_neg_eq_add, abs_of_pos (by linarith)]
  exact (abs_lt.2 ⟨by linarith, by linarith⟩).ne'

/-- Where `q` is as near to the magnitude `p` as the magnitude of `v'` is, `q` with the sign of `p` is as near as `v'`, and in a tie
the magnitudes tie too. -/
theorem signed_nearest {p q v' : ℚ} (hp : 0 < p) (hq : 0 < q) (neg : Bool) {even : Prop} (hnear : |p - q| ≤ |p - abs v'|)
    (htie : |p - abs v'| = |p - q| → |v'| = q ∨ even) :
    |signFactor neg * p - signFactor neg * q| ≤ |signFactor neg * p - v'| ∧
    (v' ≠ signFactor neg * q → |signFactor neg * p - v'| = |signFactor neg * p - signFactor neg * q| → even) := by
  have hp' : |signFactor neg * p| = p := by rw [abs_mul, abs_signFactor, one_mul, abs_of_pos hp]
  have hq' : |signFactor neg * q| = q := by rw [abs_mul, abs_signFactor, one_mul, abs_of_pos hq]
  have hle : |p - abs v'| ≤ |signFactor neg * p - v'| := by
    have := abs_abs_sub_abs_le (signFactor neg * p) v'
    rwa [hp'] at this
  rw [abs_signFactor_mul_sub]
  refine ⟨hnear.trans hle, fun hne heq => ?_⟩
  rcases htie (le_antisymm (hle.trans heq.le) hnear) with habs | heven
  · rcases abs_eq_abs.1 (habs.trans hq'.symm) with h | h
    · exact absurd h hne
    · exact absurd (h ▸ heq) (abs_sub_neg_ne hp hq neg)
  · exact heven

theorem roundToDouble_zero : roundToDouble 0 = 0 := by decide

theorem f64Value_zero : f64Value 0 = some 0 := by
  have hexp : f64Exp 0 = 0 := by decide
  have hfrac : f64Frac 0 = 0 := by decide
  rw [f64Value, if_neg (by omega), if_pos hexp, hfrac]
  simp

theorem roundMagnitude_of_overflow {m : Nat} (h : overflowBound ≤ m) : roundMagnitude m = 0x7FF0000000000000 := by
  have hpos := overflowBound_pos
  rw [roundMagnitude, ← overflowBound, if_neg (by omega), if_pos h]

/-- `roundToDouble` is R122's double: the thresholds by definition, and between them the rounded significand. -/
theorem isNearestDouble_roundToDouble (z : Int) : IsNearestDouble z (roundToDouble z) := by
  have hpos := overflowBound_pos
  unfold IsNearestDouble
  rw [← overflowBound_cast]
  refine ⟨fun hz => ?_, fun hz => ?_, fun hz => ?_, fun hz => ?_⟩
  · rw [hz, roundToDouble_zero]
  · rw [roundToDouble, roundMagnitude_of_overflow (by omega), if_neg (by omega)]
    rfl
  · rw [roundToDouble, roundMagnitude_of_overflow (by omega), if_pos (by omega)]
    rfl
  · rcases eq_or_ne z 0 with rfl | hz0
    · have heven : (roundToDouble 0).getLsbD 0 = false := by decide
      exact ⟨0, roundToDouble_zero ▸ f64Value_zero, fun b' v' _ => ⟨by simp, fun _ _ => heven⟩⟩
    · have hbound : z.natAbs < overflowBound := by rw [Int.abs_eq_natAbs] at hz; omega
      have hm := Int.natAbs_ne_zero.2 hz0
      refine ⟨_, f64Value_roundToDouble hz0 hbound, fun b' v' hv' => ?_⟩
      obtain ⟨μ, e, hμ, habs⟩ := abs_f64Value hv'
      obtain ⟨hnear, htie⟩ := significand_nearest_double hm hμ e
      rw [← habs] at hnear htie
      have hsig : 0 < significand z.natAbs := (Nat.two_pow_pos 52).trans_le (significand_range hm).1
      have hq : (0 : ℚ) < significand z.natAbs * significandUnit z.natAbs :=
        mul_pos (by exact_mod_cast hsig) (significandUnit_pos _)
      have hsigned := signed_nearest (p := z.natAbs) (by exact_mod_cast Nat.pos_of_ne_zero hm) hq (decide (z < 0)) hnear htie
      rw [signFactor_mul_natAbs] at hsigned
      exact hsigned.imp_right fun h hne heq => getLsbD_roundToDouble hz0 hbound (h hne heq)

/-- The two result words are the halves of the double (R138). -/
theorem append_halves (b : BitVec 64) : b.extractLsb' 32 32 ++ b.extractLsb' 0 32 = b := by
  rw [BitVec.extractLsb'_append_extractLsb'_eq_extractLsb' (by rfl : 32 = 0 + 32)]
  exact BitVec.extractLsb'_eq_self

theorem givesNearestDouble_of_effect {i : Instr} {s : State} {z : Int} (h : effect i s = .ok (s.setResDouble z)) :
    ∃ lo hi : Word, IsNearestDouble z (hi ++ lo) ∧ GivesResult i s lo hi :=
  ⟨(roundToDouble z).extractLsb' 0 32, (roundToDouble z).extractLsb' 32 32,
    (append_halves (roundToDouble z)).symm ▸ isNearestDouble_roundToDouble z, givesResult_of_effect h⟩

/-- Settles O42: TONAT writes the halves of `roundToDouble`, which is the nearest double. -/
theorem tonatGivesTheNearestDouble : Obligations.TonatGivesTheNearestDouble := by
  unfold Obligations.TonatGivesTheNearestDouble
  exact ⟨by decide, by decide, fun s a => ⟨checksInt_of_effect rfl, checksLong_of_effect rfl,
    fun z hz => givesNearestDouble_of_effect (effect_of_holdsInt rfl hz rfl),
    fun z hz => givesNearestDouble_of_effect (effect_of_holdsLong rfl hz rfl)⟩⟩

end Sys2Proof.Machine
end

section
/-! Addition, subtraction, negation and multiplication: each reads its operands in order and writes its result, an Integer exact or
CAPACITY, a Long modulo 2^64 (R161 to R168, R272, R273). -/

namespace Sys2Proof.Machine

section Operands
variable {i : Instr} {s : State} {d a b : Reg} {z : Int} {f : Int → Int → Except Err State}

/-- A command that begins by reading two Integer operands has those reads' errors, the first read's before the second's (R273). -/
theorem checksInts_of_effect (h : effect i s = s.readInt a >>= fun p => s.readInt b >>= f p) : ChecksInts i s a b :=
  ⟨checksInt_of_effect h, fun _ hp => checksInt_of_effect (effect_of_holdsInt h hp rfl)⟩

theorem checksLongs_of_effect (h : effect i s = s.readLong a >>= fun p => s.readLong b >>= f p) : ChecksLongs i s a b :=
  ⟨checksLong_of_effect h, fun _ hp => checksLong_of_effect (effect_of_holdsLong h hp rfl)⟩

/-- Writing a Long keeps the number modulo 2^64 (R21, R25). -/
theorem givesLong_bmod_of_effect (h : effect i s = .ok (s.writeLong d z)) : GivesLong i s d (z.bmod (2 ^ 64)) :=
  givesLong_of_effect (wrap64_eq_bmod z ▸ isLong_mkLong z) h

end Operands

/-- Settles O43: the operands are read in order, and the exact result is written as an Integer. -/
theorem integerArithmeticIsExact : Obligations.IntegerArithmeticIsExact := by
  unfold Obligations.IntegerArithmeticIsExact
  refine ⟨by decide, by decide, by decide, by decide, fun s d a b => ⟨checksInts_of_effect rfl, checksInts_of_effect rfl,
    checksInts_of_effect rfl, checksInt_of_effect rfl, fun p q hp hq => ?_, fun z hz => ?_⟩⟩
  · have hwrite (f : Int → Int → Int) : intBinary s d a b f = s.writeInt d (f p q) := intBinary_ok s d a b f p q hp hq
    exact ⟨writesIntOrCapacity_of_effect (hwrite (· + ·)), writesIntOrCapacity_of_effect (hwrite (· - ·)),
      writesIntOrCapacity_of_effect (hwrite (· * ·))⟩
  · exact writesIntOrCapacity_of_effect (intUnary_ok s d a (- ·) z hz)

/-- Settles O44: the operands are read in order, and the result is written as a Long, which wraps it. -/
theorem longArithmeticWraps : Obligations.LongArithmeticWraps := by
  unfold Obligations.LongArithmeticWraps
  refine ⟨by decide, by decide, by decide, by decide, fun s d a b => ⟨checksLongs_of_effect rfl, checksLongs_of_effect rfl,
    checksLongs_of_effect rfl, checksLong_of_effect rfl, fun p q hp hq => ?_, fun z hz => ?_⟩⟩
  · have hwrite (f : Int → Int → Int) : longBinary s d a b f = .ok (s.writeLong d (f p q)) :=
      longBinary_ok s d a b f p q hp hq
    exact ⟨givesLong_bmod_of_effect (hwrite (· + ·)), givesLong_bmod_of_effect (hwrite (· - ·)),
      givesLong_bmod_of_effect (hwrite (· * ·))⟩
  · exact givesLong_bmod_of_effect (longUnary_ok s d a (- ·) z hz)

end Sys2Proof.Machine
end

section
/-! The numbers of the division commands: the model's quotients are the truncating and the flooring one, and each remainder lies
between 0 and the operand whose sign it follows, below the divisor in magnitude (R23, R180, R183, R187). -/

namespace Sys2Proof.Machine

/-- The model's truncating quotient, a sign times a quotient of magnitudes, is the library's: where the sign there is 0, so is the
quotient of the magnitudes (R23). -/
theorem tdiv_eq (p q : Int) : tdiv p q = p.tdiv q := by
  rw [tdiv, Int.sign_mul, ← Int.sign_mul_natAbs (p.tdiv q), Int.sign_tdiv, Int.natAbs_tdiv]
  split
  · rw [Nat.div_eq_of_lt ‹_›, Nat.cast_zero, mul_zero, zero_mul]
  · rfl

theorem tmod_eq (p q : Int) : tmod p q = p.tmod q := by
  rw [tmod, tdiv_eq, Int.tmod_def]

theorem fmod_eq (p q : Int) : fmod p q = p.fmod q := (Int.fmod_def p q).symm

/-- A flooring remainder is 0 or has the divisor's sign, and is smaller than it (R187, R188). -/
theorem fmod_cases (p : Int) {q : Int} (hq : q ≠ 0) : 0 ≤ fmod p q ∧ fmod p q < q ∨ q < fmod p q ∧ fmod p q ≤ 0 := by
  rw [fmod_eq]
  rcases hq.lt_or_gt with hneg | hpos
  · have hlow := Int.fmod_nonneg_of_pos (-p) (neg_pos.2 hneg)
    have hhigh := Int.fmod_lt_of_pos (-p) (neg_pos.2 hneg)
    rw [Int.neg_fmod_neg] at hlow hhigh
    omega
  · exact .inl ⟨Int.fmod_nonneg_of_pos p hpos, Int.fmod_lt_of_pos p hpos⟩

theorem fmod_mem_uIcc (p : Int) {q : Int} (hq : q ≠ 0) : fmod p q ∈ Set.uIcc 0 q := by
  rw [Set.mem_uIcc]
  exact (fmod_cases p hq).imp (And.imp_right le_of_lt) (And.imp_left le_of_lt)

theorem abs_fmod_lt (p : Int) {q : Int} (hq : q ≠ 0) : |fmod p q| < |q| := by
  have h := fmod_cases p hq
  rw [Int.abs_eq_natAbs, Int.abs_eq_natAbs]
  omega

/-- A truncating remainder lies between 0 and the dividend (R183, R184). -/
theorem tmod_mem_uIcc (p q : Int) : tmod p q ∈ Set.uIcc 0 p := by
  have habs : (p.tmod q).natAbs ≤ p.natAbs := Int.natAbs_tmod p q ▸ Nat.mod_le _ _
  rw [tmod_eq, Set.mem_uIcc]
  rcases le_total 0 p with hp | hp
  · have hsign := Int.tmod_nonneg q hp
    omega
  · have hsign := Int.tmod_nonneg q (neg_nonneg.2 hp)
    rw [Int.neg_tmod] at hsign
    omega

theorem abs_tmod_lt (p : Int) {q : Int} (hq : q ≠ 0) : |tmod p q| < |q| := by
  rw [tmod_eq, Int.abs_eq_natAbs, Int.abs_eq_natAbs, Int.natAbs_tmod]
  exact_mod_cast Nat.mod_lt _ (Int.natAbs_pos.2 hq)

/-- The model's flooring quotient is the floor of the rational quotient: what it leaves is less than one divisor (R23). -/
theorem floor_div_eq_fdiv (p : Int) {q : Int} (hq : q ≠ 0) : ⌊(p : ℚ) / q⌋ = fdiv p q := by
  have hdiv : (p : ℚ) / q = fdiv p q + (fmod p q : ℚ) / q := by
    rw [fmod]
    push_cast
    field_simp
    ring
  rw [hdiv, Int.floor_intCast_add, add_eq_left, Int.floor_eq_zero_iff, Set.mem_Ico]
  rcases fmod_cases p hq with ⟨hlow, hhigh⟩ | ⟨hlow, hhigh⟩
  · have hpos : (0 : ℚ) < q := by exact_mod_cast hlow.trans_lt hhigh
    rw [div_lt_one hpos]
    exact ⟨div_nonneg (by exact_mod_cast hlow) hpos.le, by exact_mod_cast hhigh⟩
  · have hneg : (q : ℚ) < 0 := by exact_mod_cast hlow.trans_le hhigh
    rw [div_lt_one_of_neg hneg]
    exact ⟨div_nonneg_of_nonpos (by exact_mod_cast hhigh) hneg.le, by exact_mod_cast hlow⟩

/-- A number between 0 and another has the other's sign or is 0. -/
theorem mul_nonneg_of_mem_uIcc {r z : Int} (h : r ∈ Set.uIcc 0 z) : 0 ≤ r * z := by
  rcases Set.mem_uIcc.1 h with ⟨hlow, hhigh⟩ | ⟨hlow, hhigh⟩
  · exact mul_nonneg hlow (hlow.trans hhigh)
  · exact mul_nonneg_of_nonpos_of_nonpos hhigh (hlow.trans hhigh)

/-- A number between 0 and one that fits fits (R11). -/
theorem fits_of_mem_uIcc {s : State} {r z : Int} (hz : Fits s z) (h : r ∈ Set.uIcc 0 z) : Fits s r :=
  Set.ordConnected_Ico.uIcc_subset (fits_zero s) hz h

/-- A number between 0 and a held Long is in the Long range (R21). -/
theorem longRange_of_mem_uIcc {s : State} {a : Reg} {r z : Int} (hz : HoldsLong s a z) (h : r ∈ Set.uIcc 0 z) :
    longMin ≤ r ∧ r ≤ longMax := by
  obtain ⟨low, high, -, rfl⟩ := hz
  exact Set.ordConnected_Icc.uIcc_subset (by decide) (longVal_range low high) h

end Sys2Proof.Machine
end

section
/-! Division: each command reads its operands in order, raises DIVZERO for a zero divisor and writes its quotient or remainder
(R181 to R188, R273, R275). -/

namespace Sys2Proof.Machine

section Divisions
variable {i : Instr} {s t : State} {d a b : Reg} {p q z k : Int} {f : Int → Int → Int}

theorem raises_of_intDivision_zero (h : effect i s = intDivision s d a b f) (hp : HoldsInt s a p) (hq : HoldsInt s b 0) :
    Raises i s 4 :=
  raises_of_effect (e := .divzero) (h.trans ((intDivision_ok s d a b f p 0 hp hq).trans (if_pos rfl)))

theorem raises_of_longDivision_zero (h : effect i s = longDivision s d a b f) (hp : HoldsLong s a p)
    (hq : HoldsLong s b 0) : Raises i s 4 :=
  raises_of_effect (e := .divzero) (h.trans ((longDivision_ok s d a b f p 0 hp hq).trans (if_pos rfl)))

theorem effect_of_intDivision (h : effect i s = intDivision s d a b f) (hp : HoldsInt s a p) (hq : HoldsInt s b q)
    (h0 : q ≠ 0) : effect i s = s.writeInt d (f p q) :=
  h.trans ((intDivision_ok s d a b f p q hp hq).trans (if_neg h0))

theorem effect_of_longDivision (h : effect i s = longDivision s d a b f) (hp : HoldsLong s a p) (hq : HoldsLong s b q)
    (h0 : q ≠ 0) : effect i s = .ok (s.writeLong d (f p q)) :=
  h.trans ((longDivision_ok s d a b f p q hp hq).trans (if_neg h0))

theorem effect_eq_intDivision (hi : i ∈ [Instr.quotI d a b, .remI d a b, .divI d a b, .modI d a b]) (s : State) :
    ∃ f, effect i s = intDivision s d a b f := by
  simp only [List.mem_cons, List.not_mem_nil, or_false] at hi
  rcases hi with rfl | rfl | rfl | rfl <;> exact ⟨_, rfl⟩

theorem effect_eq_longDivision (hi : i ∈ [Instr.quotL d a b, .remL d a b, .divL d a b, .modL d a b]) (s : State) :
    ∃ f, effect i s = longDivision s d a b f := by
  simp only [List.mem_cons, List.not_mem_nil, or_false] at hi
  rcases hi with rfl | rfl | rfl | rfl <;> exact ⟨_, rfl⟩

/-- After a command that writes an Integer and completes without error, the destination holds the number written. -/
theorem eq_of_holdsInt_destination (h : effect i s = s.writeInt d z) (ht : exec i s = .next t) (herr : t.err = false)
    (hk : HoldsInt t d k) : k = z := by
  obtain ⟨u, hu, rfl⟩ | ⟨e, -, rfl⟩ := exec_cases i s t ht
  · obtain ⟨-, rfl⟩ := writeInt_eq_ok (h.symm.trans hu)
    obtain ⟨w, sg, hreg, rfl⟩ := hk
    obtain ⟨w', sg', hz, -, hval⟩ := isInt_mkInt z
    rw [reg_congr (s.setReg d (mkInt z)) (s.setReg d (mkInt z)).complete d rfl, reg_setReg_same, hz] at hreg
    obtain ⟨rfl, rfl⟩ := Value.int.inj hreg
    exact hval
  · cases herr

end Divisions

/-- Settles O45: the quotient or remainder is written as an Integer, and a remainder lies between 0 and an operand that fits. -/
theorem integerDivisionIsExact : Obligations.IntegerDivisionIsExact := by
  unfold Obligations.IntegerDivisionIsExact
  refine ⟨by decide, by decide, by decide, by decide, fun s d a b => ⟨fun i hi => ?_, fun p q hp hq h0 => ?_⟩⟩
  · obtain ⟨f, hf⟩ := effect_eq_intDivision hi s
    exact ⟨checksInts_of_effect hf, fun p => raises_of_intDivision_zero hf⟩
  · rw [← tdiv_eq, ← tmod_eq, floor_div_eq_fdiv p h0, ← fmod]
    exact ⟨writesIntOrCapacity_of_effect (effect_of_intDivision rfl hp hq h0),
      writesIntOrCapacity_of_effect (effect_of_intDivision rfl hp hq h0),
      fun hfits => givesInt_of_fits (fits_of_mem_uIcc hfits (tmod_mem_uIcc p q)) (effect_of_intDivision rfl hp hq h0),
      fun hfits => givesInt_of_fits (fits_of_mem_uIcc hfits (fmod_mem_uIcc p h0)) (effect_of_intDivision rfl hp hq h0)⟩

/-- Settles O46: the quotient or remainder is written as a Long, which wraps it; a remainder lies between 0 and a Long operand. -/
theorem longDivisionWraps : Obligations.LongDivisionWraps := by
  unfold Obligations.LongDivisionWraps
  refine ⟨by decide, by decide, by decide, by decide, fun s d a b => ⟨fun i hi => ?_, fun p q hp hq h0 => ?_⟩⟩
  · obtain ⟨f, hf⟩ := effect_eq_longDivision hi s
    exact ⟨checksLongs_of_effect hf, fun p => raises_of_longDivision_zero hf⟩
  · rw [← tdiv_eq, ← tmod_eq, floor_div_eq_fdiv p h0, ← fmod]
    obtain ⟨hrem, hrem'⟩ := longRange_of_mem_uIcc hp (tmod_mem_uIcc p q)
    obtain ⟨hmod, hmod'⟩ := longRange_of_mem_uIcc hq (fmod_mem_uIcc p h0)
    exact ⟨givesLong_bmod_of_effect (effect_of_longDivision rfl hp hq h0),
      givesLong_of_range hrem hrem' (effect_of_longDivision rfl hp hq h0),
      givesLong_bmod_of_effect (effect_of_longDivision rfl hp hq h0),
      givesLong_of_range hmod hmod' (effect_of_longDivision rfl hp hq h0)⟩

/-- Settles O57: the destinations hold the model's quotient and remainder, and each remainder is what its quotient leaves. -/
theorem divisionIdentities : Obligations.DivisionIdentities := by
  unfold Obligations.DivisionIdentities
  intro s t u d a b p q k r hp hq h0
  refine ⟨fun ht hterr hu huerr hk hr => ?_, fun ht hterr hu huerr hk hr => ?_⟩
  · obtain rfl : k = tdiv p q := eq_of_holdsInt_destination (effect_of_intDivision rfl hp hq h0) ht hterr hk
    obtain rfl : r = tmod p q := eq_of_holdsInt_destination (effect_of_intDivision rfl hp hq h0) hu huerr hr
    exact ⟨by rw [tmod]; ring, abs_tmod_lt p h0, mul_nonneg_of_mem_uIcc (tmod_mem_uIcc p q)⟩
  · obtain rfl : k = fdiv p q := eq_of_holdsInt_destination (effect_of_intDivision rfl hp hq h0) ht hterr hk
    obtain rfl : r = fmod p q := eq_of_holdsInt_destination (effect_of_intDivision rfl hp hq h0) hu huerr hr
    exact ⟨by rw [fmod]; ring, abs_fmod_lt p h0, mul_nonneg_of_mem_uIcc (fmod_mem_uIcc p h0)⟩

end Sys2Proof.Machine
end

section
/-! Comparison: each command reads its operands in order and writes the sign of their order to RES and to STATUS.CMP, with nothing to
check after the reads (R41, R200 to R204, R273). -/

namespace Sys2Proof.Machine

theorem compareResult_of_lt {p q : Int} (h : p < q) : compareResult p q = -1 := if_pos h

theorem compareResult_self (p : Int) : compareResult p p = 0 := by
  rw [compareResult, if_neg (lt_irrefl p), if_pos rfl]

theorem compareResult_of_gt {p q : Int} (h : q < p) : compareResult p q = 1 := by
  rw [compareResult, if_neg h.not_gt, if_neg h.ne']

section Outcomes
variable {i : Instr} {s : State} {p q : Int}

theorem givesCompare_of_effect {c : Int} (h : effect i s = .ok (s.setCompare c)) : GivesCompare i s (word c) (cmpField c) := by
  rw [GivesCompare, exec_eq_finish, h]
  rfl

/-- A command that writes a compare result gives each of the three orders its word and its two bits. -/
theorem compares_of_effect (h : effect i s = .ok (s.setCompare (compareResult p q))) : Compares i s p q := by
  refine ⟨fun hlt => ?_, fun heq => ?_, fun hgt => ?_⟩
  · rw [compareResult_of_lt hlt] at h
    exact givesCompare_of_effect h
  · subst heq
    rw [compareResult_self] at h
    exact givesCompare_of_effect h
  · rw [compareResult_of_gt hgt] at h
    exact givesCompare_of_effect h

end Outcomes

/-- Settles O47: the operands are read in order, and the compare result of the values is written whatever the stored lengths. -/
theorem compareGivesTheOrder : Obligations.CompareGivesTheOrder := by
  unfold Obligations.CompareGivesTheOrder
  exact ⟨by decide, by decide, by decide, by decide, fun s a b => ⟨checksInts_of_effect rfl, checksLongs_of_effect rfl,
    checksInt_of_effect rfl, checksLong_of_effect rfl,
    fun _ _ hp hq => compares_of_effect (effect_of_holdsInt (effect_of_holdsInt rfl hp rfl) hq rfl),
    fun _ _ hp hq => compares_of_effect (effect_of_holdsLong (effect_of_holdsLong rfl hp rfl) hq rfl),
    fun _ hz => compares_of_effect (effect_of_holdsInt rfl hz rfl),
    fun _ hz => compares_of_effect (effect_of_holdsLong rfl hz rfl)⟩⟩

end Sys2Proof.Machine
end

section
/-! Scaling by a power of two: the shifts move an integer's bits, a right shift lies between 0 and its operand, and SHL and SHR write
what they give (R24, R219 to R223). -/

namespace Sys2Proof.Machine

/-- Flooring by `2^n` drops the low `n` bits. -/
theorem intBit_shiftRight (z : Int) (n k : Nat) : intBit (shiftRight z n) k = intBit z (n + k) := by
  rw [intBit, shiftRight, Int.ediv_ediv_of_nonneg (by positivity), intBit, pow_add, Nat.cast_mul]

/-- Multiplying by `2^n` moves every bit up by `n` places. -/
theorem intBit_shiftLeft_add (z : Int) (n k : Nat) : intBit (shiftLeft z n) (n + k) = intBit z k := by
  rw [← intBit_shiftRight, shiftRight, shiftLeft, Int.mul_ediv_cancel _ (by positivity)]

/-- Multiplying by `2^n` leaves 0 in the low `n` bits. -/
theorem intBit_shiftLeft_of_lt (z : Int) {n k : Nat} (h : k < n) : intBit (shiftLeft z n) k = false := by
  obtain ⟨j, rfl⟩ := Nat.exists_eq_add_of_lt h
  have hsplit : z * ((2 ^ (k + j + 1) : Nat) : Int) = 2 * (z * 2 ^ j) * ((2 ^ k : Nat) : Int) := by push_cast; ring
  rw [intBit, shiftLeft, hsplit, Int.mul_ediv_cancel _ (by positivity), Int.mul_emod_right]
  rfl

theorem shiftRight_shiftLeft (z : Int) (sh : Nat) : shiftRight (shiftLeft z sh) sh = z :=
  Int.mul_ediv_cancel z (by positivity)

theorem shiftLeft_eq (z : Int) (sh : Nat) : shiftLeft z sh = z * 2 ^ sh := by
  rw [shiftLeft, Nat.cast_pow, Nat.cast_ofNat]

/-- The right shift is the floor of the rational quotient (R219). -/
theorem floor_div_two_pow (z : Int) (sh : Nat) : ⌊(z : ℚ) / 2 ^ sh⌋ = shiftRight z sh := by
  rw [shiftRight, ← Rat.floor_intCast_div_natCast, Nat.cast_pow, Nat.cast_ofNat]

/-- A right shift lies between 0 and its operand, a negative number's at or below -1. -/
theorem shiftRight_mem_uIcc (z : Int) (sh : Nat) : shiftRight z sh ∈ Set.uIcc 0 z := by
  have hK : (0 : Int) < ((2 ^ sh : Nat) : Int) := by positivity
  rw [shiftRight, Set.mem_uIcc]
  rcases le_or_gt 0 z with hz | hz
  · exact .inl ⟨Int.ediv_nonneg hz hK.le, Int.ediv_le_self _ hz⟩
  · exact .inr ⟨(Int.le_ediv_iff_mul_le hK).2 (mul_le_of_one_le_right hz.le hK), (Int.ediv_neg_of_neg_of_pos hz hK).le⟩

/-- A shift left by 64 or more leaves nothing of a Long (R221). -/
theorem bmod_mul_two_pow_of_le (z : Int) {sh : Nat} (h : 64 ≤ sh) : (z * 2 ^ sh).bmod (2 ^ 64) = 0 := by
  refine Int.bmod_eq_zero_of_dvd ?_
  exact_mod_cast Dvd.dvd.mul_left (pow_dvd_pow (2 : Int) h) z

/-- Settles O50: the operand is read and its shift written as an Integer; a right shift lies between 0 and an operand that fits. -/
theorem integerShiftsScaleByAPowerOfTwo : Obligations.IntegerShiftsScaleByAPowerOfTwo := by
  unfold Obligations.IntegerShiftsScaleByAPowerOfTwo
  refine ⟨by decide, by decide, fun s d a sh => ⟨checksInt_of_effect rfl, checksInt_of_effect rfl, fun z hz => ?_⟩⟩
  rw [floor_div_two_pow, ← shiftLeft_eq]
  exact ⟨writesIntOrCapacity_of_effect (effect_of_holdsInt rfl hz rfl),
    fun hfits => givesInt_of_fits (fits_of_mem_uIcc hfits (shiftRight_mem_uIcc z sh)) (effect_of_holdsInt rfl hz rfl)⟩

/-- Settles O51: the operand is read and its shift written as a Long, which wraps it; a right shift lies between 0 and its operand. -/
theorem longShiftsScaleByAPowerOfTwo : Obligations.LongShiftsScaleByAPowerOfTwo := by
  unfold Obligations.LongShiftsScaleByAPowerOfTwo
  refine ⟨by decide, by decide, fun s d a sh => ⟨checksLong_of_effect rfl, checksLong_of_effect rfl, fun z hz => ?_⟩⟩
  have hleft : GivesLong (.shlL d a sh) s d ((z * 2 ^ sh).bmod (2 ^ 64)) :=
    shiftLeft_eq z sh ▸ givesLong_bmod_of_effect (effect_of_holdsLong rfl hz rfl)
  obtain ⟨hlow, hhigh⟩ := longRange_of_mem_uIcc hz (shiftRight_mem_uIcc z sh)
  rw [floor_div_two_pow]
  exact ⟨hleft, fun h => bmod_mul_two_pow_of_le z h ▸ hleft,
    givesLong_of_range hlow hhigh (effect_of_holdsLong rfl hz rfl)⟩

/-- Settles O59: after the left shift the destination holds the exact product, whose right shift is the operand. -/
theorem shiftRightUndoesShiftLeft : Obligations.ShiftRightUndoesShiftLeft := by
  unfold Obligations.ShiftRightUndoesShiftLeft
  intro s t d e a sh z hz hfits hexec
  rw [← shiftLeft_eq] at hfits
  have heffect : effect (.shlI d a sh) s = .ok (s.setReg d (mkInt (shiftLeft z sh))) :=
    effect_of_holdsInt rfl hz (writeInt_of_fits s d _ hfits)
  rw [exec_eq_finish, heffect, finish_ok, Host.Outcome.next.injEq] at hexec
  subst hexec
  have hheld : HoldsInt (s.setReg d (mkInt (shiftLeft z sh))).complete d (shiftLeft z sh) :=
    ⟨_, _, reg_setReg_same s d _, intVal_mkInt _⟩
  have hback : Fits (s.setReg d (mkInt (shiftLeft z sh))).complete (shiftRight (shiftLeft z sh) sh) :=
    fits_of_mem_uIcc hfits (shiftRight_mem_uIcc _ sh)
  have hgives := givesInt_of_fits (i := .shrI e d sh) (d := e) hback (effect_of_holdsInt rfl hheld rfl)
  rwa [shiftRight_shiftLeft] at hgives

end Sys2Proof.Machine
end

section
/-! The bitwise commands: an integer of `n` bits and a sign is one whose bits agree from bit `n` on, so a result whose every bit comes
from the operands' bits at its place needs no more bits than they do (R24, R211 to R218). -/

namespace Sys2Proof.Machine

/-- The integers of `n` bits and a sign: those of `n / 32` stored words (R11), the Longs for `n = 63` (R21). -/
def bitRange (n : Nat) : Set Int := Set.Ico (-((2 ^ n : Nat) : Int)) ((2 ^ n : Nat) : Int)

theorem fits_iff_mem_bitRange (s : State) (z : Int) : Fits s z ↔ z ∈ bitRange (32 * s.maxw.toNat) := Iff.rfl

/-- The integer all of whose bits are `b`: the sign alone. -/
def constBits (b : Bool) : Int := if b then -1 else 0

theorem intBit_constBits (b : Bool) (k : Nat) : intBit (constBits b) k = b := by
  rw [intBit_eq_testBit]
  cases b with
  | false => simp [constBits, Int.testBit]
  | true => exact (congrArg not (Nat.zero_testBit k)).trans Bool.not_false

theorem mem_bitRange_iff_shiftRight (z : Int) (n : Nat) : z ∈ bitRange n ↔ ∃ b, shiftRight z n = constBits b := by
  have hK : (0 : Int) < ((2 ^ n : Nat) : Int) := by positivity
  simp only [bitRange, Set.mem_Ico, shiftRight, constBits, Bool.exists_bool, if_true, Bool.false_eq_true, if_false,
    Int.ediv_eq_iff_of_pos hK]
  omega

/-- An integer has `n` bits and a sign exactly when all its bits from bit `n` on are the same. -/
theorem mem_bitRange_iff_intBit (z : Int) (n : Nat) : z ∈ bitRange n ↔ ∃ b, ∀ k, intBit z (n + k) = b := by
  rw [mem_bitRange_iff_shiftRight]
  refine exists_congr fun b => ⟨fun h k => ?_, fun h => intBit_ext fun k => ?_⟩
  · rw [← intBit_shiftRight, h, intBit_constBits]
  · rw [intBit_shiftRight, h, intBit_constBits]

section Bits
variable {bitOp : Bool → Bool → Bool} {intOp : Int → Int → Int} {p q z : Int} {i : Instr} {s : State} {d a b : Reg}

/-- An operation on the bits of two integers of `n` bits and a sign gives one. -/
theorem mem_bitRange_of_bitwise {n : Nat} (hz : ∀ k, intBit z k = bitOp (intBit p k) (intBit q k))
    (hp : p ∈ bitRange n) (hq : q ∈ bitRange n) : z ∈ bitRange n := by
  obtain ⟨bp, hbp⟩ := (mem_bitRange_iff_intBit p n).1 hp
  obtain ⟨bq, hbq⟩ := (mem_bitRange_iff_intBit q n).1 hq
  exact (mem_bitRange_iff_intBit z n).2 ⟨bitOp bp bq, fun k => by rw [hz, hbp, hbq]⟩

theorem eq_of_bitwise (hint : ∀ p q k, intBit (intOp p q) k = bitOp (intBit p k) (intBit q k))
    (hz : ∀ k, intBit z k = bitOp (intBit p k) (intBit q k)) : intOp p q = z :=
  intBit_ext fun k => (hint p q k).trans (hz k).symm

/-- An Integer command that works bit by bit on operands that fit gives the integer with those bits, which fits. -/
theorem givesInt_of_bitwise (hint : ∀ p q k, intBit (intOp p q) k = bitOp (intBit p k) (intBit q k))
    (h : effect i s = intBinary s d a b intOp) (hp : HoldsInt s a p) (hq : HoldsInt s b q) (hpfits : Fits s p)
    (hqfits : Fits s q) (hz : ∀ k, intBit z k = bitOp (intBit p k) (intBit q k)) : GivesInt i s d z := by
  rw [fits_iff_mem_bitRange] at hpfits hqfits
  refine givesInt_of_fits ((fits_iff_mem_bitRange s z).2 (mem_bitRange_of_bitwise hz hpfits hqfits)) ?_
  rw [h, intBinary_ok s d a b intOp p q hp hq, eq_of_bitwise hint hz]

/-- A held Long has 63 bits and a sign. -/
theorem mem_bitRange_of_holdsLong (h : HoldsLong s a z) : z ∈ bitRange 63 := by
  obtain ⟨low, high, -, rfl⟩ := h
  exact (longVal_range low high).imp_right Int.lt_of_le_sub_one

/-- A Long command that works bit by bit gives the integer with those bits, which is in range. -/
theorem givesLong_of_bitwise (hint : ∀ p q k, intBit (intOp p q) k = bitOp (intBit p k) (intBit q k))
    (h : effect i s = longBinary s d a b intOp) (hp : HoldsLong s a p) (hq : HoldsLong s b q)
    (hz : ∀ k, intBit z k = bitOp (intBit p k) (intBit q k)) : GivesLong i s d z := by
  obtain ⟨hlow, hhigh⟩ := mem_bitRange_of_bitwise hz (mem_bitRange_of_holdsLong hp) (mem_bitRange_of_holdsLong hq)
  refine givesLong_of_range hlow (Int.le_sub_one_of_lt hhigh) ?_
  rw [h, longBinary_ok s d a b intOp p q hp hq, eq_of_bitwise hint hz]

end Bits

/-- A number and its complement need the same bits. -/
theorem lnot_mem_bitRange {z : Int} {n : Nat} (h : z ∈ bitRange n) : lnot z ∈ bitRange n := by
  rw [bitRange, Set.mem_Ico, lnot] at *
  omega

theorem fits_lnot {s : State} {z : Int} (h : Fits s z) : Fits s (lnot z) :=
  (fits_iff_mem_bitRange s _).2 (lnot_mem_bitRange ((fits_iff_mem_bitRange s z).1 h))

/-- Settles O48: the operands are read in order; the result's bits are the operands' bits combined, so it fits where they do. -/
theorem integerBitwiseWorksBitByBit : Obligations.IntegerBitwiseWorksBitByBit := by
  unfold Obligations.IntegerBitwiseWorksBitByBit
  exact ⟨by decide, by decide, by decide, by decide, fun s d a b => ⟨checksInts_of_effect rfl, checksInts_of_effect rfl,
    checksInts_of_effect rfl, checksInt_of_effect rfl,
    fun p q z hp hq hpfits hqfits => ⟨givesInt_of_bitwise intBit_land rfl hp hq hpfits hqfits,
      givesInt_of_bitwise intBit_lor rfl hp hq hpfits hqfits, givesInt_of_bitwise intBit_lxor rfl hp hq hpfits hqfits⟩,
    fun z hz hfits => givesInt_of_fits (fits_lnot hfits) (effect_of_holdsInt rfl hz rfl)⟩⟩

/-- Settles O49: the operands are read in order; the result's bits are the operands' bits combined, so it is in range. -/
theorem longBitwiseWorksBitByBit : Obligations.LongBitwiseWorksBitByBit := by
  unfold Obligations.LongBitwiseWorksBitByBit
  refine ⟨by decide, by decide, by decide, by decide, fun s d a b => ⟨checksLongs_of_effect rfl, checksLongs_of_effect rfl,
    checksLongs_of_effect rfl, checksLong_of_effect rfl,
    fun p q z hp hq => ⟨givesLong_of_bitwise intBit_land rfl hp hq, givesLong_of_bitwise intBit_lor rfl hp hq,
      givesLong_of_bitwise intBit_lxor rfl hp hq⟩, fun z hz => ?_⟩⟩
  obtain ⟨hlow, hhigh⟩ := lnot_mem_bitRange (mem_bitRange_of_holdsLong hz)
  exact givesLong_of_range hlow (Int.le_sub_one_of_lt hhigh) (effect_of_holdsLong rfl hz rfl)

end Sys2Proof.Machine
end

section
/-! The shifter: an output word is cut out of two adjacent input words, so it holds the 32 bits that lie the shift count below (SHL) or
above (SHR) its own place; a right shift is a left shift by a negative count (R22, R219). -/

namespace Sys2Proof.Machine

/-- Bit `n` of a value's infinite reading, and 0 below it, read through `getBits` (R22). -/
def valueBit (v : Value) (n : Int) : Bool := (getBits v (n / 32)).getLsbD (n % 32).toNat

theorem valueBit_of_neg (v : Value) {n : Int} (h : n < 0) : valueBit v n = false := by
  rw [valueBit, getBits_of_neg v (Int.ediv_neg_of_neg_of_pos h (by norm_num)), BitVec.ofNat_eq_ofNat, BitVec.getLsbD_zero]

/-- Bit `j` of word `i` is bit `32 * i + j` of the value. -/
theorem getLsbD_getBits (v : Value) (i : Int) {j : Nat} (h : j < 32) :
    (getBits v i).getLsbD j = valueBit v (32 * i + j) := by
  have hdiv : (32 * i + j) / 32 = i := by omega
  have hmod : ((32 * i + j) % 32).toNat = j := by omega
  rw [valueBit, hdiv, hmod]

theorem valueBit_int (w : List Word) {sg : Word} (h : sg = 0 ∨ sg = signOnes) (k : Nat) :
    valueBit (.int w sg) k = intBit (intVal w sg) k := by
  have hdiv : (k : Int) / 32 = (k / 32 : Nat) := by omega
  have hmod : ((k : Int) % 32).toNat = k % 32 := by omega
  rw [valueBit, hdiv, hmod, getBits_int_natCast, intBit_intVal w sg h]

/-- All bits of a sign word are the same. -/
theorem getLsbD_sign {sg : Word} (h : sg = 0 ∨ sg = signOnes) {j k : Nat} (hj : j < 32) (hk : k < 32) :
    sg.getLsbD j = sg.getLsbD k := by
  rcases h with rfl | rfl
  · simp
  · have hones : signOnes = BitVec.allOnes 32 := by decide
    rw [hones, BitVec.getLsbD_allOnes, BitVec.getLsbD_allOnes, decide_eq_true hj, decide_eq_true hk]

/-- The bits from the stored words on are the sign. -/
theorem valueBit_of_length_le {w : List Word} {sg : Word} (h : sg = 0 ∨ sg = signOnes) {n : Int} {j : Nat} (hj : j < 32)
    (hn : 32 * (w.length : Int) ≤ n) : valueBit (.int w sg) n = sg.getLsbD j := by
  obtain ⟨k, rfl⟩ : ∃ k : Nat, n = k := ⟨n.toNat, by omega⟩
  rw [valueBit_int w h, intBit_intVal w sg h, List.getD_eq_default _ _ (by omega)]
  exact getLsbD_sign h (Nat.mod_lt _ (by norm_num)) hj

/-- Word `i` of a value shifted left by `32 * q + r` bits, as R219's formula for SHL assembles it. -/
def shiftedWord (v : Value) (q : Int) (r : Nat) (i : Int) : Word :=
  if r = 0 then getBits v (i - q) else getBits v (i - q) <<< r ||| getBits v (i - q - 1) >>> (32 - r)

/-- A bit of an assembled word is the value's bit that lies the count below it. -/
theorem getLsbD_shiftedWord (v : Value) (q : Int) {r : Nat} (hr : r < 32) (i : Int) {j : Nat} (hj : j < 32) :
    (shiftedWord v q r i).getLsbD j = valueBit v (32 * i + j - (32 * q + r)) := by
  unfold shiftedWord
  split
  case isTrue h0 =>
    rw [getLsbD_getBits v _ hj]
    congr 1
    omega
  case isFalse h0 =>
    rw [BitVec.getLsbD_or, BitVec.getLsbD_shiftLeft, BitVec.getLsbD_ushiftRight]
    rcases Nat.lt_or_ge j r with hlt | hge
    · have hbit := getLsbD_getBits v (i - q - 1) (j := 32 - r + j) (by omega)
      simp only [hlt, decide_true, Bool.not_true, Bool.and_false, Bool.false_and, Bool.false_or, hbit]
      congr 1
      omega
    · have hbit := getLsbD_getBits v (i - q) (j := j - r) (by omega)
      have hbeyond : (getBits v (i - q - 1)).getLsbD (32 - r + j) = false := BitVec.getLsbD_of_ge _ _ (by omega)
      simp only [hj, Nat.not_lt.2 hge, decide_true, decide_false, Bool.not_false, Bool.true_and, hbeyond, Bool.or_false, hbit]
      congr 1
      omega

/-- Assembled words that reach as far as the shifted value's own hold exactly its bits. -/
theorem intBit_shiftedWords (w : List Word) {sg : Word} (h : sg = 0 ∨ sg = signOnes) (q : Int) {r : Nat} (hr : r < 32) {m : Nat}
    (hm : 32 * (w.length : Int) + (32 * q + r) ≤ 32 * m) (k : Nat) :
    intBit (intVal ((List.range m).map fun i : Nat => shiftedWord (.int w sg) q r i) sg) k =
      valueBit (.int w sg) (k - (32 * q + r)) := by
  have hk : k % 32 < 32 := Nat.mod_lt _ (by norm_num)
  rw [intBit_intVal _ _ h, getD_map_range, getLsbD_shiftedWord _ _ hr _ hk]
  · congr 1
    omega
  · intro i hi
    refine BitVec.eq_of_getLsbD_eq fun j hj => ?_
    rw [getLsbD_shiftedWord _ _ hr _ hj]
    exact valueBit_of_length_le h hj (by omega)

/-- SHL's words hold `z * 2^sh` (R219, R220). -/
theorem intVal_shiftedWords_left (w : List Word) {sg : Word} (h : sg = 0 ∨ sg = signOnes) (sh : Nat) :
    intVal ((List.range (w.length + sh / 32 + 1)).map fun i : Nat => shiftedWord (.int w sg) (sh / 32 : Nat) (sh % 32) i) sg =
      shiftLeft (intVal w sg) sh := by
  refine intBit_ext fun k => ?_
  have hcount : 32 * ((sh / 32 : Nat) : Int) + (sh % 32 : Nat) = sh := by omega
  rw [intBit_shiftedWords w h _ (Nat.mod_lt _ (by norm_num)) (by omega), hcount]
  rcases Nat.lt_or_ge k sh with hk | hk
  · rw [intBit_shiftLeft_of_lt _ hk, valueBit_of_neg _ (by omega)]
  · obtain ⟨j, rfl⟩ := Nat.exists_eq_add_of_le hk
    rw [intBit_shiftLeft_add, ← valueBit_int w h]
    congr 1
    omega

/-- The words of a left shift by a negative count hold `floor(z / 2^sh)` (R219, R222). -/
theorem intVal_shiftedWords_right (w : List Word) {sg : Word} (h : sg = 0 ∨ sg = signOnes) {q : Int} {r sh : Nat} (hr : r < 32)
    (hcount : 32 * q + r = -sh) :
    intVal ((List.range w.length).map fun i : Nat => shiftedWord (.int w sg) q r i) sg = shiftRight (intVal w sg) sh := by
  refine intBit_ext fun k => ?_
  rw [intBit_shiftedWords w h q hr (by omega), hcount, intBit_shiftRight, ← valueBit_int w h]
  congr 1
  omega

/-- A word of SHR's formula with a part of a word to shift is one of a left shift by the negative count. -/
theorem shiftedWord_neg (v : Value) (q i : Int) {r : Nat} (hr : r < 32) :
    shiftedWord v (-q - 1) (32 - r) i = getBits v (i + q) >>> r ||| getBits v (i + q + 1) <<< (32 - r) := by
  have hlow : i - (-q - 1) - 1 = i + q := by ring
  have hhigh : i - (-q - 1) = i + q + 1 := by ring
  rw [shiftedWord, if_neg (by omega), hlow, hhigh, Nat.sub_sub_self hr.le, BitVec.or_comm]

/-- Settles O32: the words assembled for a count hold the bits of the scaled value, SHR's for the negative count. -/
theorem shifterWorksWordByWord : Obligations.ShifterWorksWordByWord := by
  unfold Obligations.ShifterWorksWordByWord
  intro w sg sh h
  have hr : sh % 32 < 32 := Nat.mod_lt _ (by norm_num)
  have hfloor : (intVal w sg).fdiv (2 ^ sh) = shiftRight (intVal w sg) sh := by
    rw [Int.fdiv_eq_ediv_of_nonneg _ (by positivity), shiftRight, Nat.cast_pow, Nat.cast_ofNat]
  rw [← shiftLeft_eq, hfloor, map_intRange, map_intRange]
  refine ⟨intVal_shiftedWords_left w h sh, ?_⟩
  by_cases h0 : sh % 32 = 0
  · rw [← intVal_shiftedWords_right w h (q := -(sh / 32 : Nat)) (r := 0) (sh := sh) (by norm_num) (by omega)]
    simp only [h0, shiftedWord, if_true, sub_neg_eq_add]
  · rw [← intVal_shiftedWords_right w h (q := -(sh / 32 : Nat) - 1) (r := 32 - sh % 32) (sh := sh) (by omega) (by omega)]
    simp only [if_neg h0, shiftedWord_neg _ _ _ hr]

end Sys2Proof.Machine
end

section
/-! The text of the string buffer: SCLR, SPUT and SGET (R234 to R236). -/

namespace Sys2Proof.Machine

/-- Settles O52: SPUT writes one byte of a buffer in canonical form, and each error is the guard of its command. -/
theorem stringCommandsWorkOnTheText : Obligations.StringCommandsWorkOnTheText := by
  unfold Obligations.StringCommandsWorkOnTheText
  refine ⟨by decide, by decide, by decide, fun s => ⟨exec_eq_finish .sclr s, fun hfull => ?_, fun hroom hwf => ?_,
    fun hbeyond => ?_, fun hbelow => ?_⟩⟩
  · exact raises_of_effect (e := .strovf) (if_pos hfull)
  · rw [BitVec.setWidth_eq_extractLsb' (by norm_num)]
    refine ⟨Memory.write s.strbuf s.strlen (s.aLo.extractLsb' 0 8), ?_, Memory.read_write_same _ _ _ hwf.1,
      fun k hk => Memory.read_write_other _ _ _ _ hk⟩
    rw [exec_eq_finish, effect, if_neg hroom]
    rfl
  · exact raises_of_effect (e := .stridx) (if_pos hbeyond)
  · exact givesResult_of_effect (if_neg (Nat.not_le.2 hbelow))

end Sys2Proof.Machine
end

section
/-! Reading a numeral: the text's sign and body, each error of `parse` in its order, and the positional sum that a digit string of the
radix denotes (R231, R232, R237). -/

namespace Sys2Proof.Machine

/-- The model's digit value is the digit the code is, or 99 for a code that is none (R231). -/
theorem digitval_eq_getD (c : Byte) : digitval c = (digitOf c).getD 99 := by
  unfold digitval digitOf
  simp only [apply_ite (fun o : Option Nat => o.getD 99), Option.getD_some, Option.getD_none]

/-- In a radix up to 36, a code is no digit exactly when its digit, if it is one at all, is not below the radix (R231). -/
theorem le_digitval_iff {r : Nat} (hr : r ≤ 36) (c : Byte) : r ≤ digitval c ↔ ∀ k, digitOf c = some k → r ≤ k := by
  rw [digitval_eq_getD]
  cases digitOf c with
  | none => simp; omega
  | some k => simp

/-- The first digit weighs the radix to the power of the number of digits after it. -/
theorem digitsVal_cons (r : Nat) (c : Byte) (t : List Byte) :
    digitsVal r (c :: t) = digitval c * r ^ t.length + digitsVal r t := by
  induction t using List.reverseRecOn with
  | nil => simp [digitsVal]
  | append_singleton t x ih =>
    rw [← List.cons_append, digitsVal_append_singleton, ih, digitsVal_append_singleton, List.length_append,
      List.length_singleton, pow_succ]
    ring

/-- A digit string of the radix denotes its positional sum. -/
theorem IsNumeral.digitsVal_eq {r m : Nat} {t : List Byte} (h : IsNumeral r t m) : digitsVal r t = m := by
  induction h with
  | nil => rfl
  | cons c k m t hk hr ht ih => rw [digitsVal_cons, ih, digitval_eq_getD, hk, Option.getD_some]

theorem IsNumeral.digitval_lt {r m : Nat} {t : List Byte} (h : IsNumeral r t m) : ∀ c ∈ t, digitval c < r := by
  induction h with
  | nil => simp
  | cons c k m t hk hr ht ih =>
    refine List.forall_mem_cons.2 ⟨?_, ih⟩
    rwa [digitval_eq_getD, hk]

/-- The text is `body` after its sign: a leading `-` is one, and `neg` says whether it is there (R232). -/
def SignAndBody (t : List Byte) (neg : Bool) (body : List Byte) : Prop :=
  neg = true ∧ t = minusCode :: body ∨ neg = false ∧ t = body ∧ body.head? ≠ some minusCode

section SignedText
variable {t body : List Byte} {neg : Bool} {r : Nat}

theorem SignAndBody.head_iff (h : SignAndBody t neg body) : t.head? = some minusCode ↔ neg = true := by
  rcases h with ⟨rfl, rfl⟩ | ⟨rfl, rfl, hhead⟩
  · simp
  · simp [hhead]

theorem SignAndBody.parseBody_eq (h : SignAndBody t neg body) : parseBody t = body := by
  rcases h with ⟨-, rfl⟩ | ⟨-, rfl, hhead⟩
  · simp [parseBody]
  · exact if_neg hhead

/-- With a radix in its range, `parse` looks at the body (R232). -/
theorem SignAndBody.parse_eq (h : SignAndBody t neg body) (hlo : 2 ≤ r) (hhi : r ≤ 36) : parse t r =
    if body = [] then .error .empty
    else if minusCode ∈ body then .error .sign
    else if ∃ c ∈ body, r ≤ digitval c then .error .digit
    else .ok (if neg = true then -(digitsVal r body : Int) else digitsVal r body) := by
  have hradix : ¬(r < 2 ∨ 36 < r) := by omega
  simp only [parse, if_neg hradix, h.parseBody_eq, h.head_iff, List.contains_iff_mem, List.any_eq_true, decide_eq_true_eq,
    apply_ite (Except.ok (ε := Err))]

end SignedText

section Command
variable {s : State} {d : Reg} {r : Nat}

theorem raises_parseI {e : Err} (h : parse s.text r = .error e) : Raises (.parseI d r) s e.code :=
  raises_of_effect (by rw [effect, h]; rfl)

theorem writesIntOrCapacity_parseI {z : Int} (h : parse s.text r = .ok z) : WritesIntOrCapacity (.parseI d r) s d z :=
  writesIntOrCapacity_of_effect (by rw [effect, h]; rfl)

end Command

/-- Settles O53: the model's tests are the errors in their order, and a digit string of the radix meets none of them. -/
theorem parseReadsTheNumeral : Obligations.ParseReadsTheNumeral := by
  unfold Obligations.ParseReadsTheNumeral
  refine ⟨by decide, by decide, fun s d r neg body hsplit => ⟨fun hradix => ?_, fun hlo hhi => ?_⟩⟩
  · exact raises_parseI (e := .radix) (if_pos hradix)
  have hparse := SignAndBody.parse_eq hsplit hlo hhi
  refine ⟨fun hempty => ?_, fun (hsign : minusCode ∈ body) => ?_, fun (hsign : minusCode ∉ body) ⟨c, hc, hdigit⟩ => ?_,
    fun m hne hnum => ?_⟩
  · exact raises_parseI (e := .empty) (hparse.trans (if_pos hempty))
  · refine raises_parseI (e := .sign) (hparse.trans ?_)
    rw [if_neg (List.ne_nil_of_mem hsign), if_pos hsign]
  · refine raises_parseI (e := .digit) (hparse.trans ?_)
    rw [if_neg (List.ne_nil_of_mem hc), if_neg hsign, if_pos ⟨c, hc, (le_digitval_iff hhi c).2 hdigit⟩]
  · refine writesIntOrCapacity_parseI (hparse.trans ?_)
    have hdigits := hnum.digitval_lt
    have hsign : minusCode ∉ body := fun h => absurd (hhi.trans_lt' (hdigits _ h)) (by decide)
    have hdigit : ¬∃ c ∈ body, r ≤ digitval c := fun ⟨c, hc, hle⟩ => absurd (hdigits c hc) (Nat.not_lt.2 hle)
    rw [if_neg hne, if_neg hsign, if_neg hdigit, hnum.digitsVal_eq]

end Sys2Proof.Machine
end

section
/-! Writing a number: `dec` is the decimal text that the claims describe, digit codes with no leading zero that denote the number, and
TOSTR replaces the text by it (R233, R238, R239). -/

namespace Sys2Proof.Machine

/-- The digit values below ten are those of the codes `0` to `9` (R231). -/
theorem decimalCode_of_digitval_lt {c : Byte} (h : digitval c < 10) :
    (0x30 ≤ c.toNat ∧ c.toNat ≤ 0x39) ∧ digitval c = c.toNat - 0x30 := by
  simp only [digitval] at *
  split_ifs at h ⊢ with hdecimal
  · exact ⟨hdecimal, rfl⟩
  all_goals omega

theorem isDigits_decNat (n : Nat) : IsDigits (decNat n) := fun c hc =>
  (decimalCode_of_digitval_lt (digitval_lt_of_mem_decNat n c hc)).1

/-- On digit codes the claims' reading of a decimal text is the model's reading in radix 10. -/
theorem decimalValue_eq_digitsVal {t : List Byte} (h : ∀ c ∈ t, digitval c < 10) : decimalValue t = digitsVal 10 t := by
  refine List.foldl_ext _ _ _ fun acc c hc => ?_
  rw [(decimalCode_of_digitval_lt (h c hc)).2, Nat.mul_comm]

theorem decimalValue_decNat (n : Nat) : decimalValue (decNat n) = n :=
  (decimalValue_eq_digitsVal (digitval_lt_of_mem_decNat n)).trans (digitsVal_decNat n)

/-- With fuel for its binary digits, a positive number's first decimal digit is not zero. -/
theorem decDigits_eq_cons (fuel n : Nat) (hn : n ≠ 0) (h : n < 2 ^ fuel) :
    ∃ c t, decDigits fuel n = c :: t ∧ digitval c ≠ 0 := by
  induction fuel generalizing n with
  | zero => omega
  | succ fuel ih =>
    rcases Nat.lt_or_ge n 10 with hlt | hge
    · exact ⟨_, [], decDigits_succ_of_lt _ _ hlt, by rwa [digitval_digitCode _ hlt]⟩
    · obtain ⟨c, t, ht, hc⟩ := ih (n / 10) (by omega) (by rw [pow_succ] at h; omega)
      exact ⟨c, t ++ [digitCode (n % 10)], by rw [decDigits_succ_of_le _ _ hge, ht, List.cons_append], hc⟩

theorem head_decNat_ne_zeroCode {n : Nat} (hn : n ≠ 0) : (decNat n).head? ≠ some 0x30 := by
  obtain ⟨c, t, ht, hc⟩ := decDigits_eq_cons (n.log2 + 1) n hn Nat.lt_log2_self
  rw [decNat, ht, List.head?_cons]
  rintro ⟨⟩
  exact hc rfl

/-- The model's decimal text is the one R233 describes: `0`, or the magnitude's digits after the sign. -/
theorem isDecimalText_dec (z : Int) : IsDecimalText (dec z) z := by
  refine ⟨fun hzero => ?_, fun hpos => ?_, fun hneg => ?_⟩
  · subst hzero
    rfl
  · rw [dec, if_neg (not_lt.2 hpos.le)]
    refine ⟨isDigits_decNat _, head_decNat_ne_zeroCode (by omega), decNat_ne_nil _, ?_⟩
    rw [decimalValue_decNat]
    omega
  · refine ⟨decNat z.natAbs, if_pos hneg, isDigits_decNat _, head_decNat_ne_zeroCode (by omega), decNat_ne_nil _, ?_⟩
    rw [decimalValue_decNat]
    omega

/-- A command that writes a text replaces the buffer's entries from 0 on and no other (R238). -/
theorem exec_of_effect_putText {i : Instr} {s : State} {t : List Byte} (h : effect i s = .ok (s.putText t)) : exec i s =
    .next { s with strbuf := Memory.writeAll s.strbuf 0 t, strlen := t.length, resLo := BitVec.ofNat 32 t.length, resHi := 0,
                   busy := false, curCmd := 0, aLo := 0, aHi := 0 } := by
  rw [exec_eq_finish, h]
  rfl

/-- Settles O54: the command reads its operand and writes `dec` of the value, which fits where the value is one the block holds. -/
theorem tostrWritesTheDecimalText : Obligations.TostrWritesTheDecimalText := by
  unfold Obligations.TostrWritesTheDecimalText
  refine ⟨by decide, by decide, fun s a => ⟨checksInt_of_effect rfl, checksLong_of_effect rfl, fun i z hi hwf => ?_⟩⟩
  have heffect : effect i s = .ok (s.putText (dec z)) := by
    rcases hi with ⟨rfl, hz⟩ | ⟨rfl, hz⟩
    · exact effect_of_holdsInt rfl hz rfl
    · exact effect_of_holdsLong rfl hz rfl
  have hroom (hs : s.Inv) : (dec z).length ≤ s.strcap.toNat := by
    rcases hi with ⟨-, hz⟩ | ⟨-, hz⟩
    · exact length_dec_le_strcap_of_fits hs (fits_of_holdsInt s a z hs hz)
    · exact length_dec_le_strcap_of_holdsLong hs hz
  refine ⟨dec z, Memory.writeAll s.strbuf 0 (dec z), isDecimalText_dec z, hroom, exec_of_effect_putText heffect,
    fun k hk => ?_, fun k hk => Memory.read_writeAll_other _ _ _ _ (.inr (by omega))⟩
  have hread := Memory.read_writeAll_same (dec z) s.strbuf 0 k hwf hk
  rwa [Nat.zero_add] at hread

end Sys2Proof.Machine
end

section
/-! Bit decomposition: DECD and DECF write the mantissa, which fits two words, and the exponent and the sign, from which a finite
value is rebuilt (R121, R260 to R263). -/

namespace Sys2Proof.Machine

/-- A command that writes one Integer that fits and the two result words has no other effect. -/
theorem exec_of_effect_writeInt_setRes {i : Instr} {s : State} {d : Reg} {z : Int} {lo hi : Word} (hz : Fits s z)
    (h : effect i s = s.writeInt d z >>= fun t => .ok (t.setRes lo hi)) : exec i s =
    .next { s with x := s.x.set d.toNat (mkInt z) d.isLt, resLo := lo, resHi := hi,
                   busy := false, curCmd := 0, aLo := 0, aHi := 0 } := by
  rw [exec_eq_finish, h, writeInt_of_fits s d z hz]
  rfl

theorem fits_natCast {s : State} {m : Nat} (hmaxw : 2 ≤ s.maxw.toNat) (hm : m < 2 ^ 63) : Fits s m := by
  refine fits_of_longRange hmaxw ?_ ?_
  · unfold longMin
    omega
  · unfold longMax
    omega

section Binary64
variable (b : BitVec 64)

theorem f64Mantissa_lt : f64Mantissa b < 2 ^ 53 := by
  have hfrac : f64Frac b < 2 ^ 52 := (b.extractLsb' 0 52).isLt
  unfold f64Mantissa
  split <;> omega

variable {b}

theorem f64Mantissa_of_exp_ne_zero (h : f64Exp b ≠ 0) : f64Mantissa b = 2 ^ 52 + f64Frac b := if_neg h

theorem f64Exponent_of_exp_ne_zero (h : f64Exp b ≠ 0) : f64Exponent b = f64Exp b - 1075 := if_neg h

/-- A value that a binary64 pattern denotes is its sign times DECD's mantissa at DECD's exponent. -/
theorem eq_of_f64Value_eq_some {u : ℚ} (h : f64Value b = some u) :
    u = (if f64Sign b = true then -1 else 1) * (f64Mantissa b : ℚ) * (2 : ℚ) ^ f64Exponent b := by
  have hexp : f64Exp b ≠ 2047 := fun hmax => by simp [f64Value, hmax] at h
  rw [f64Value_of_finite hexp] at h
  exact (Option.some.inj h).symm

/-- DECD's mantissa and exponent of NaN and the infinities (R262). -/
theorem f64_split_of_max_exp (h : f64Exp b = 2047) : f64Mantissa b = 2 ^ 52 + f64Frac b ∧ f64Exponent b = 972 := by
  have hexp : f64Exp b ≠ 0 := by omega
  refine ⟨f64Mantissa_of_exp_ne_zero hexp, ?_⟩
  rw [f64Exponent_of_exp_ne_zero hexp, h]
  rfl

end Binary64

/-- Settles O55: the witnesses are the model's canonical form, mantissa and exponent. -/
theorem decdSplitsADouble : Obligations.DecdSplitsADouble := by
  unfold Obligations.DecdSplitsADouble
  refine ⟨by decide, fun s d hmaxw b (hb : b = s.argPair) => ?_⟩
  subst hb
  have hfits : Fits s (f64Mantissa s.argPair) := fits_natCast hmaxw ((f64Mantissa_lt _).trans (by norm_num))
  refine ⟨mkInt (f64Mantissa s.argPair), f64Mantissa s.argPair, f64Exponent s.argPair, isInt_mkInt _,
    fun hexp => ⟨if_pos hexp, if_pos hexp⟩,
    fun hexp => ⟨f64Mantissa_of_exp_ne_zero hexp, f64Exponent_of_exp_ne_zero hexp⟩,
    exec_of_effect_writeInt_setRes hfits rfl, fun _ => eq_of_f64Value_eq_some,
    fun hexp hfrac => ⟨(f64_of_max_exp _ hexp).trans (if_neg hfrac), f64_split_of_max_exp hexp⟩,
    fun hexp hfrac => ⟨(f64_of_max_exp _ hexp).trans (if_pos hfrac), ?_⟩, f64_of_finite _⟩
  have hsplit := f64_split_of_max_exp hexp
  rwa [hfrac] at hsplit

section Binary32
variable (b : Word)

theorem f32Mantissa_lt : f32Mantissa b < 2 ^ 24 := by
  have hfrac : f32Frac b < 2 ^ 23 := (b.extractLsb' 0 23).isLt
  unfold f32Mantissa
  split <;> omega

variable {b}

theorem f32Mantissa_of_exp_ne_zero (h : f32Exp b ≠ 0) : f32Mantissa b = 2 ^ 23 + f32Frac b := if_neg h

theorem f32Exponent_of_exp_ne_zero (h : f32Exp b ≠ 0) : f32Exponent b = f32Exp b - 150 := if_neg h

/-- A value that a binary32 pattern denotes is its sign times DECF's mantissa at DECF's exponent. -/
theorem eq_of_f32Value_eq_some {u : ℚ} (h : f32Value b = some u) :
    u = (if f32Sign b = true then -1 else 1) * (f32Mantissa b : ℚ) * (2 : ℚ) ^ f32Exponent b := by
  have hexp : f32Exp b ≠ 255 := fun hmax => by simp [f32Value, hmax] at h
  rw [← f32_rational, f32_of_finite b hexp] at h
  exact (Option.some.inj h).symm

/-- DECF's mantissa and exponent of NaN and the infinities (R263). -/
theorem f32_split_of_max_exp (h : f32Exp b = 255) : f32Mantissa b = 2 ^ 23 + f32Frac b ∧ f32Exponent b = 105 := by
  have hexp : f32Exp b ≠ 0 := by omega
  refine ⟨f32Mantissa_of_exp_ne_zero hexp, ?_⟩
  rw [f32Exponent_of_exp_ne_zero hexp, h]
  rfl

end Binary32

/-- Settles O56: the witnesses are the model's canonical form, mantissa and exponent. -/
theorem decfSplitsAFloat : Obligations.DecfSplitsAFloat := by
  unfold Obligations.DecfSplitsAFloat
  refine ⟨by decide, fun s d hmaxw => ?_⟩
  have hfits : Fits s (f32Mantissa s.aLo) := fits_natCast hmaxw ((f32Mantissa_lt _).trans (by norm_num))
  refine ⟨mkInt (f32Mantissa s.aLo), f32Mantissa s.aLo, f32Exponent s.aLo, isInt_mkInt _,
    fun hexp => ⟨if_pos hexp, if_pos hexp⟩,
    fun hexp => ⟨f32Mantissa_of_exp_ne_zero hexp, f32Exponent_of_exp_ne_zero hexp⟩,
    exec_of_effect_writeInt_setRes hfits rfl, fun _ => eq_of_f32Value_eq_some,
    fun hexp hfrac => ⟨(f32_of_max_exp _ hexp).trans (if_neg hfrac), f32_split_of_max_exp hexp⟩,
    fun hexp hfrac => ⟨(f32_of_max_exp _ hexp).trans (if_pos hfrac), ?_⟩, f32_of_finite _⟩
  have hsplit := f32_split_of_max_exp hexp
  rwa [hfrac] at hsplit

end Sys2Proof.Machine
end

section
/-! The turns of the engine: with a command in flight each is a run of the command, and with none it changes nothing (R97, R288,
R301, R311, R318; logs 1 and 9). -/

namespace Sys2Proof.Machine

/-- Settles O19: the buffered writes and the error completion both end with no command in flight. -/
theorem everyCommandCompletes : Obligations.EveryCommandCompletes := by
  unfold Obligations.EveryCommandCompletes
  intro i s
  obtain ⟨t, ht, -⟩ := exec_completes i s
  rcases exec_cases i s t ht with ⟨u, -, rfl⟩ | ⟨e, -, rfl⟩
  · exact ⟨u.complete, ht, rfl, rfl, rfl, rfl⟩
  · exact ⟨s.raise e, ht, rfl, rfl, rfl, rfl⟩

theorem runCommand_of_decode {s : State} {i : Instr} (h : decode s.curCmd = .ok i) : runCommand s = exec i s := by
  rw [runCommand, h]

theorem engineTurn_of_decode {s : State} {i : Instr} (hbusy : s.busy = true) (h : decode s.curCmd = .ok i) :
    engineTurn s = exec i s :=
  (engineTurn_of_busy s hbusy).trans (runCommand_of_decode h)

theorem engineTurn_of_idle {s : State} (h : s.busy = false) : engineTurn s = .next s :=
  if_neg (by simp [h])

theorem step_of_tape_poll_busy {s : State} {rest : List Event} (htape : s.tape = .poll :: rest) (hbusy : s.busy = true) :
    step s = runCommand s := by
  rw [step_of_tape htape, eventTurn_poll, if_pos hbusy]

theorem step_of_tape_poll_idle {s : State} {rest : List Event} (htape : s.tape = .poll :: rest) (hbusy : s.busy = false) :
    step s = .next (State.recordRead { s with tape := rest } s.statusWord) := by
  rw [step_of_tape htape, eventTurn_poll, if_neg (by simp [hbusy]), popTape_of_tape htape]

/-- Settles O6: each of the three turns runs the command in flight, and a poll leaves the tape as it is. -/
theorem stepRunsTheCommandInFlight : Obligations.StepRunsTheCommandInFlight := by
  unfold Obligations.StepRunsTheCommandInFlight
  exact fun s i hbusy hdecode => ⟨fun htape => (step_of_tape_end htape).trans (engineTurn_of_decode hbusy hdecode),
    fun rest htape => (step_of_tape_engine htape).trans (engineTurn_of_decode hbusy hdecode),
    fun rest htape => (step_of_tape_poll_busy htape hbusy).trans (runCommand_of_decode hdecode)⟩

/-- Settles O7: the engine has nothing to run, and the poll reads STATUS. -/
theorem idleBlockKeepsItsState : Obligations.IdleBlockKeepsItsState := by
  unfold Obligations.IdleBlockKeepsItsState
  exact fun s hidle => ⟨fun htape => (step_of_tape_end htape).trans (engineTurn_of_idle hidle),
    fun rest htape => (step_of_tape_engine htape).trans (engineTurn_of_idle hidle),
    fun rest htape => step_of_tape_poll_idle htape hidle⟩

end Sys2Proof.Machine
end

section
/-! The error fields: the buffered writes of a command leave them alone, so an error they record is that of an error completion
(R271, R278). -/

namespace Sys2Proof.Machine

/-- ERR, ERRCODE and ERRCMD. -/
def State.errorFields (s : State) : Bool × BitVec 4 × Word := (s.err, s.errcode, s.errcmd)

theorem Writes.errorFields_eq {i : Instr} {s t : State} (h : Writes i s t) : t.errorFields = s.errorFields := by
  cases h <;> rfl

/-- Settles O21: a command that answers has recorded its error alone, or made writes that leave the error fields alone. -/
theorem errorsArePrecise : Obligations.ErrorsArePrecise := by
  unfold Obligations.ErrorsArePrecise
  intro i s t h
  rcases exec_cases i s t h with ⟨u, hu, rfl⟩ | ⟨e, he, rfl⟩
  · have hfields := (effect_writes i s u hu).errorFields_eq
    simp only [State.errorFields, Prod.mk.injEq] at hfields
    obtain ⟨herr, hcode, hcmd⟩ := hfields
    exact .inr ⟨herr, hcode, hcmd, rfl⟩
  · obtain ⟨hlow, hhigh⟩ := err_code_range e
    exact .inl ⟨e.code, hlow, hhigh, raises_of_effect he⟩

theorem eq_capacity_of_code {e : Err} (h : e.code = 9) : e = .capacity := by
  revert h
  cases e <;> decide

/-- With no error recorded before, code 9 after a command is that of its own error. -/
theorem effect_of_raises_capacity {i : Instr} {s : State} (herr : s.err = false) (h : Raises i s 9) :
    effect i s = .error .capacity := by
  rcases exec_cases i s _ h with ⟨u, hu, ht⟩ | ⟨e, he, ht⟩
  · have hkept : u.err = s.err := congrArg Prod.fst (effect_writes i s u hu).errorFields_eq
    have hset : true = u.err := congrArg State.err ht
    exact nomatch hset.trans (hkept.trans herr)
  · have hcode : 9 = e.code := congrArg State.errcode ht
    rw [he, eq_capacity_of_code hcode.symm]

end Sys2Proof.Machine
end

section
/-! The argument registers: they are stored at once and latched at acceptance, and no command reads them after that (R38, R310,
R314). -/

namespace Sys2Proof.Machine

/-- The same block with other words in ARG_LO and ARG_HI. -/
def State.withArgs (u v : Word) (s : State) : State := { s with argLo := u, argHi := v }

section Shapes
variable {s : State} {u v : Word}

/-- What a command goes on with does not depend on ARG where its continuation does not. -/
theorem bind_withArgs {α : Type} (x : Except Err α) {f f' : α → Except Err State}
    (h : ∀ a, f' a = (f a).map (State.withArgs u v)) : x >>= f' = (x >>= f).map (State.withArgs u v) := by
  cases x with
  | error e => rfl
  | ok a => exact h a

theorem guard_withArgs {c : Prop} [Decidable c] (e : Err) {x x' : Except Err State}
    (h : x' = x.map (State.withArgs u v)) :
    (if c then .error e else x') = (if c then .error e else x).map (State.withArgs u v) := by
  split
  · rfl
  · exact h

theorem writeInt_withArgs (d : Reg) (z : Int) :
    (s.withArgs u v).writeInt d z = (s.writeInt d z).map (State.withArgs u v) :=
  guard_withArgs .capacity rfl

variable (d a b : Reg)

theorem intUnary_withArgs (f : Int → Int) :
    intUnary (s.withArgs u v) d a f = (intUnary s d a f).map (State.withArgs u v) :=
  bind_withArgs (s.readInt a) fun _ => writeInt_withArgs d _

theorem longUnary_withArgs (f : Int → Int) :
    longUnary (s.withArgs u v) d a f = (longUnary s d a f).map (State.withArgs u v) :=
  bind_withArgs (s.readLong a) fun _ => rfl

theorem intBinary_withArgs (f : Int → Int → Int) :
    intBinary (s.withArgs u v) d a b f = (intBinary s d a b f).map (State.withArgs u v) :=
  bind_withArgs (s.readInt a) fun _ => bind_withArgs (s.readInt b) fun _ => writeInt_withArgs d _

theorem longBinary_withArgs (f : Int → Int → Int) :
    longBinary (s.withArgs u v) d a b f = (longBinary s d a b f).map (State.withArgs u v) :=
  bind_withArgs (s.readLong a) fun _ => bind_withArgs (s.readLong b) fun _ => rfl

theorem intDivision_withArgs (f : Int → Int → Int) :
    intDivision (s.withArgs u v) d a b f = (intDivision s d a b f).map (State.withArgs u v) :=
  bind_withArgs (s.readInt a) fun _ => bind_withArgs (s.readInt b) fun _ =>
    guard_withArgs .divzero (writeInt_withArgs d _)

theorem longDivision_withArgs (f : Int → Int → Int) :
    longDivision (s.withArgs u v) d a b f = (longDivision s d a b f).map (State.withArgs u v) :=
  bind_withArgs (s.readLong a) fun _ => bind_withArgs (s.readLong b) fun _ => guard_withArgs .divzero rfl

/-- DECD and DECF write a mantissa and two result words. -/
theorem decompose_withArgs (z : Int) (lo hi : Word) :
    ((s.withArgs u v).writeInt d z >>= fun t => .ok (t.setRes lo hi)) =
      (s.writeInt d z >>= fun t => .ok (t.setRes lo hi)).map (State.withArgs u v) := by
  rw [writeInt_withArgs]
  cases s.writeInt d z <;> rfl

end Shapes

/-- The buffered writes of a command are the same whatever ARG holds, and leave it as it is. -/
theorem effect_withArgs (i : Instr) (s : State) (u v : Word) :
    effect i (s.withArgs u v) = (effect i s).map (State.withArgs u v) := by
  cases i with
  | nop | ldiL d | ldnL d | ldpL d | sclr => rfl
  | ldiI d | ldpI d | ldnI d => exact writeInt_withArgs d _
  | movI d a | cvtI d a | rdwI a | lenI a | tonatI a | sgnI a | tostrI a => exact bind_withArgs (s.readInt a) fun _ => rfl
  | rdwL a | tonatL a | sgnL a | tostrL a => exact bind_withArgs (s.readLong a) fun _ => rfl
  | wpushI d => exact bind_withArgs (s.readInt d) fun _ => writeInt_withArgs d _
  | cvtL d a => exact bind_withArgs (s.readLong a) fun _ => writeInt_withArgs d _
  | negI d a | notI d a | shlI d a sh | shrI d a sh => exact intUnary_withArgs d a _
  | movL d a | negL d a | notL d a | shlL d a sh | shrL d a sh => exact longUnary_withArgs d a _
  | addI d a b | subI d a b | mulI d a b | andI d a b | orI d a b | xorI d a b => exact intBinary_withArgs d a b _
  | addL d a b | subL d a b | mulL d a b | andL d a b | orL d a b | xorL d a b => exact longBinary_withArgs d a b _
  | quotI d a b | remI d a b | divI d a b | modI d a b => exact intDivision_withArgs d a b _
  | quotL d a b | remL d a b | divL d a b | modL d a b => exact longDivision_withArgs d a b _
  | cmpI a b => exact bind_withArgs (s.readInt a) fun _ => bind_withArgs (s.readInt b) fun _ => rfl
  | cmpL a b => exact bind_withArgs (s.readLong a) fun _ => bind_withArgs (s.readLong b) fun _ => rfl
  | sput => exact guard_withArgs .strovf rfl
  | sget => exact guard_withArgs .stridx rfl
  | parseI d radix => exact bind_withArgs (parse s.text radix) fun _ => writeInt_withArgs d _
  | decd d | decf d => exact decompose_withArgs d _ _ _

theorem exec_withArgs {i : Instr} {s t : State} (u v : Word) (h : exec i s = .next t) :
    exec i (s.withArgs u v) = .next (t.withArgs u v) := by
  rw [exec_eq_finish, effect_withArgs]
  rcases exec_cases i s t h with ⟨w, hw, rfl⟩ | ⟨e, he, rfl⟩
  · rw [hw]
    rfl
  · rw [he]
    rfl

/-- Settles O10: ARG_LO and ARG_HI are offsets 4 and 8, commands commute with a change of them, and acceptance latches them. -/
theorem argumentWritesLeaveTheCommandInFlightAlone : Obligations.ArgumentWritesLeaveTheCommandInFlightAlone := by
  unfold Obligations.ArgumentWritesLeaveTheCommandInFlightAlone
  refine ⟨fun s v rest => ⟨fun htape => ?_, fun htape => ?_⟩, fun i s t u v => exec_withArgs u v,
    fun s u v c rest htape hbusy herr => ?_⟩
  · exact step_write 0x04 v htape (by norm_num) rfl
  · exact step_write 0x08 v htape (by norm_num) rfl
  · obtain ⟨haccepted, -, -⟩ := cmdWriteIsAcceptedOrLost (s.withArgs u v) c rest
    exact haccepted htape hbusy herr

end Sys2Proof.Machine
end

section
/-! CAPACITY: only the write of an Integer that does not fit raises it, and in a state of the invariant the commands that R270 does
not list for it write no such Integer (R270, R272). -/

namespace Sys2Proof.Machine

section Shapes
variable {s : State} {d a b : Reg} {z : Int}

theorem writeInt_ne_capacity (h : Fits s z) : s.writeInt d z ≠ .error .capacity := by
  simp [writeInt_of_fits s d z h]

theorem readInt_bind_ne_capacity {f : Int → Except Err State} (h : ∀ z, HoldsInt s a z → f z ≠ .error .capacity) :
    s.readInt a >>= f ≠ .error .capacity := by
  rcases holdsInt_or_failsInt s a with ⟨z, hz⟩ | ⟨e, he⟩
  · rw [(readInt_eq_ok s a z).2 hz]
    exact h z hz
  · rw [(readInt_eq_error s a e).2 he]
    rcases he with ⟨-, rfl⟩ | ⟨-, -, -, rfl⟩ <;> exact nofun

theorem readLong_bind_ne_capacity {f : Int → Except Err State} (h : ∀ z, HoldsLong s a z → f z ≠ .error .capacity) :
    s.readLong a >>= f ≠ .error .capacity := by
  rcases holdsLong_or_failsLong s a with ⟨z, hz⟩ | ⟨e, he⟩
  · rw [(readLong_eq_ok s a z).2 hz]
    exact h z hz
  · rw [(readLong_eq_error s a e).2 he]
    rcases he with ⟨-, rfl⟩ | ⟨-, -, -, rfl⟩ <;> exact nofun

theorem guard_ne_capacity {c : Prop} [Decidable c] {e : Err} {x : Except Err State} (he : e ≠ .capacity)
    (h : ¬c → x ≠ .error .capacity) : (if c then .error e else x) ≠ .error .capacity := by
  split
  · simpa using he
  · exact h ‹_›

theorem intUnary_ne_capacity {f : Int → Int} (h : ∀ z, HoldsInt s a z → Fits s (f z)) :
    intUnary s d a f ≠ .error .capacity :=
  readInt_bind_ne_capacity fun z hz => writeInt_ne_capacity (h z hz)

theorem intBinary_ne_capacity {f : Int → Int → Int} (h : ∀ p q, HoldsInt s a p → HoldsInt s b q → Fits s (f p q)) :
    intBinary s d a b f ≠ .error .capacity :=
  readInt_bind_ne_capacity fun p hp => readInt_bind_ne_capacity fun q hq => writeInt_ne_capacity (h p q hp hq)

theorem intDivision_ne_capacity {f : Int → Int → Int}
    (h : ∀ p q, HoldsInt s a p → HoldsInt s b q → q ≠ 0 → Fits s (f p q)) : intDivision s d a b f ≠ .error .capacity :=
  readInt_bind_ne_capacity fun p hp => readInt_bind_ne_capacity fun q hq =>
    guard_ne_capacity (by decide) fun h0 => writeInt_ne_capacity (h p q hp hq h0)

theorem longUnary_ne_capacity {f : Int → Int} : longUnary s d a f ≠ .error .capacity :=
  readLong_bind_ne_capacity fun _ _ => nofun

theorem longBinary_ne_capacity {f : Int → Int → Int} : longBinary s d a b f ≠ .error .capacity :=
  readLong_bind_ne_capacity fun _ _ => readLong_bind_ne_capacity fun _ _ => nofun

theorem longDivision_ne_capacity {f : Int → Int → Int} : longDivision s d a b f ≠ .error .capacity :=
  readLong_bind_ne_capacity fun _ _ => readLong_bind_ne_capacity fun _ _ => guard_ne_capacity (by decide) fun _ => nofun

theorem decompose_ne_capacity {lo hi : Word} (h : Fits s z) :
    (s.writeInt d z >>= fun t => .ok (t.setRes lo hi)) ≠ .error .capacity := by
  rw [writeInt_of_fits s d z h]
  exact nofun

/-- An Integer command that works bit by bit gives one that fits, from Integers of a state of the invariant. -/
theorem bitwise_ne_capacity {bitOp : Bool → Bool → Bool} {intOp : Int → Int → Int} (hs : s.Inv)
    (hint : ∀ p q k, intBit (intOp p q) k = bitOp (intBit p k) (intBit q k)) :
    intBinary s d a b intOp ≠ .error .capacity :=
  intBinary_ne_capacity fun p q hp hq =>
    mem_bitRange_of_bitwise (hint p q) (fits_of_holdsInt s a p hs hp) (fits_of_holdsInt s b q hs hq)

end Shapes

/-- The other commands write no Integer, one of two words, or one no larger than an operand that the block holds. -/
theorem effect_ne_capacity {i : Instr} {s : State} (hs : s.Inv) (hi : mayRaiseCapacity i = false) :
    effect i s ≠ .error .capacity := by
  obtain ⟨hmaxw, -, -⟩ := hs.params
  cases i with
  | addI | subI | negI | mulI | quotI | divI | shlI | wpushI | ldnI | parseI => cases hi
  | nop | ldiL d | ldpL d | ldnL d | sclr => exact nofun
  | movI d a | cvtI d a | rdwI a | lenI a | tonatI a | sgnI a | tostrI a => exact readInt_bind_ne_capacity fun _ _ => nofun
  | rdwL a | tonatL a | sgnL a | tostrL a => exact readLong_bind_ne_capacity fun _ _ => nofun
  | cmpI a b => exact readInt_bind_ne_capacity fun _ _ => readInt_bind_ne_capacity fun _ _ => nofun
  | cmpL a b => exact readLong_bind_ne_capacity fun _ _ => readLong_bind_ne_capacity fun _ _ => nofun
  | sput | sget => exact guard_ne_capacity (by decide) fun _ => nofun
  | movL d a | negL d a | notL d a | shlL d a sh | shrL d a sh => exact longUnary_ne_capacity
  | addL d a b | subL d a b | mulL d a b | andL d a b | orL d a b | xorL d a b => exact longBinary_ne_capacity
  | quotL d a b | remL d a b | divL d a b | modL d a b => exact longDivision_ne_capacity
  | ldiI d =>
    exact writeInt_ne_capacity (fits_of_longRange hmaxw (longMin_le_toInt s.aLo) (toInt_le_longMax s.aLo))
  | ldpI d =>
    obtain ⟨hlow, hhigh⟩ := longVal_range s.aLo s.aHi
    exact writeInt_ne_capacity (toInt_argPair s ▸ fits_of_longRange hmaxw hlow hhigh)
  | cvtL d a =>
    refine readLong_bind_ne_capacity fun z hz => writeInt_ne_capacity ?_
    obtain ⟨low, high, -, rfl⟩ := hz
    obtain ⟨hlow, hhigh⟩ := longVal_range low high
    exact fits_of_longRange hmaxw hlow hhigh
  | remI d a b =>
    exact intDivision_ne_capacity fun p q hp _ _ => fits_of_mem_uIcc (fits_of_holdsInt s a p hs hp) (tmod_mem_uIcc p q)
  | modI d a b =>
    exact intDivision_ne_capacity fun p q _ hq h0 => fits_of_mem_uIcc (fits_of_holdsInt s b q hs hq) (fmod_mem_uIcc p h0)
  | andI d a b => exact bitwise_ne_capacity hs intBit_land
  | orI d a b => exact bitwise_ne_capacity hs intBit_lor
  | xorI d a b => exact bitwise_ne_capacity hs intBit_lxor
  | notI d a => exact intUnary_ne_capacity fun z hz => fits_lnot (fits_of_holdsInt s a z hs hz)
  | shrI d a sh =>
    exact intUnary_ne_capacity fun z hz => fits_of_mem_uIcc (fits_of_holdsInt s a z hs hz) (shiftRight_mem_uIcc z sh)
  | decd d => exact decompose_ne_capacity (fits_natCast hmaxw ((f64Mantissa_lt _).trans (by norm_num)))
  | decf d => exact decompose_ne_capacity (fits_natCast hmaxw ((f32Mantissa_lt _).trans (by norm_num)))

/-- Settles O22: code 9 is the command's own CAPACITY, which a command that is not listed never raises. -/
theorem onlyListedCommandsRaiseCapacity : Obligations.OnlyListedCommandsRaiseCapacity := by
  unfold Obligations.OnlyListedCommandsRaiseCapacity
  intro i s hs herr h
  by_contra hi
  exact effect_ne_capacity hs (Bool.eq_false_of_not_eq_true hi) (effect_of_raises_capacity herr h)

end Sys2Proof.Machine
end
